-- ==== Sys2Proof/Word.lean ====
section
/-! DEFINITION. The word types of the NAND command protocol block (30_encoding R90, 10_state R27). -/

namespace Sys2Proof

/-- A word of either queue: 32 bits (30_encoding R90). -/
abbrev Word := BitVec 32

/-- A data byte on pins IO0 to IO7 (20_memory R62). -/
abbrev Byte := BitVec 8

/-- One bit per pin, pin `i` at bit `i` (20_memory R67). -/
abbrev Pins := BitVec 16

end Sys2Proof
end

