-- ==== Sys2Proof/Config.lean ====
section
/-! DEFINITION. The configuration record `CFG` (00_scope R10 to R12) and the free values the spec leaves open. -/

namespace Sys2Proof

/-- What command id 5 does (00_scope R12, 93 U2). -/
inductive Id5Mode where
  /-- id 5 is `signal`, the first `wait_rbb` id is 6 -/
  | signal
  /-- id 5 is `wait_rbb`, there is no `signal` command -/
  | waitRbb
  deriving DecidableEq, Repr

/-- `WPB_TABLE`: the level of write-protect-bar during each kind of command (00_scope R11, 40_dispatch R148).
A function from seven kinds to a bit, written out as plain data. -/
structure WpbTable where
  bitbang : Bool
  cmdLatch : Bool
  addrLatch : Bool
  dataOutput : Bool
  dataInput : Bool
  signal : Bool
  waitRbb : Bool
  deriving DecidableEq, Repr

/-- NANDIO's "held permanently disabled": the constant 1 (00_scope R12). -/
def WpbTable.constantOne : WpbTable :=
  ⟨true, true, true, true, true, true, true⟩

/-- The configuration record, fixed for a whole run (00_scope R10, R11). -/
structure Cfg where
  /-- `T_SETUP`: cycles from payload placement to the rising edge of `web` -/
  tSetup : Nat
  /-- `T_HOLD`: cycles from a rising edge to the next pin change -/
  tHold : Nat
  /-- `T_RSETTLE`: cycles `reb` stays low before the sample -/
  tRsettle : Nat
  /-- `ID5_MODE` -/
  id5Mode : Id5Mode
  /-- `WPB_TABLE` -/
  wpbTable : WpbTable
  /-- `TX_DEPTH`: capacity of the host-to-device queue -/
  txDepth : Nat
  /-- `RX_DEPTH`: capacity of the device-to-host queue -/
  rxDepth : Nat
  /-- `INIT_OUT`: the output latches after reset -/
  initOut : Pins
  /-- `INIT_PINDIR`: the pin directions after reset -/
  initPindir : Pins
  /-- `MAX_CYCLES`: the driver's cycle ceiling -/
  maxCycles : Nat
  /-- `IMEM_SLOTS`: bounds the opaque program only -/
  imemSlots : Nat
  deriving DecidableEq, Repr

/-- The defaults of 00_scope R11. -/
def Cfg.default : Cfg where
  tSetup := 1
  tHold := 1
  tRsettle := 1
  id5Mode := .signal
  wpbTable := .constantOne
  txDepth := 4
  rxDepth := 4
  initOut := 0x7300
  initPindir := 0x0000
  maxCycles := 100000
  imemSlots := 32

/-- A valid configuration: none of the six quantities of 00_scope R11 is 0 (93 U1). -/
def Cfg.valid (c : Cfg) : Bool :=
  decide (1 ≤ c.tSetup) && decide (1 ≤ c.tHold) && decide (1 ≤ c.tRsettle) &&
    decide (1 ≤ c.txDepth) && decide (1 ≤ c.rxDepth) && decide (1 ≤ c.maxCycles)

/-- FREE VALUE (93 U8, U9; log entry 2). The level every pin would have in cycle `c` if the block did not drive it,
in a cycle for which State lists no level. No body: nothing can be proved of it. -/
opaque Config.ext : Nat → Pins

/-- FREE VALUE (log entry 16). The cycle a byte-count violation names when the trace has no snapshot at all
(46_harness R308 names the last snapshot's cycle, and an empty trace has none). -/
opaque Config.emptyTraceCycle : Nat

end Sys2Proof
end

