-- ==== Sys2Proof/Syntax.lean ====
section
/-! DEFINITION. The commands: the seven kinds (00_scope R3) and `Instr`, one constructor per row of
spec/opcode_table.json. -/

namespace Sys2Proof

/-- The seven command kinds `BB, CL, AL, DO, DI, SIG, WR` (00_scope R18). -/
inductive Kind where
  | bitbang
  | cmdLatch
  | addrLatch
  | dataOutput
  | dataInput
  | signal
  | waitRbb
  deriving DecidableEq, Repr

/-- One dispatched command: what the SETUP phase reads from cmd_0 and cmd_1 (30_encoding R91, R94, R102).
`tc` is `transfer_count`, `pd` is `pin_directions`, `cmd1` the whole second word (kept whole, since every bit of it is
popped into `CMD1`; which bits a kind uses is its meaning's affair). The payload words of `addr_latch` and `data_input`
are popped later, one per iteration, and are no operands here (20_memory R78, log entry 7). -/
inductive Instr where
  /-- id 0 -/
  | bitbang (tc : BitVec 12) (pd : BitVec 16) (cmd1 : Word)
  /-- id 1 -/
  | cmdLatch (tc : BitVec 12) (pd : BitVec 16) (cmd1 : Word)
  /-- id 2 -/
  | addrLatch (tc : BitVec 12) (pd : BitVec 16) (cmd1 : Word)
  /-- id 3 -/
  | dataOutput (tc : BitVec 12) (pd : BitVec 16) (cmd1 : Word)
  /-- id 4 -/
  | dataInput (tc : BitVec 12) (pd : BitVec 16) (cmd1 : Word)
  /-- id 5 when `ID5_MODE = Signal` -/
  | signal (tc : BitVec 12) (pd : BitVec 16) (cmd1 : Word)
  /-- id 5 when `ID5_MODE = WaitRbb` -/
  | waitRbbFive (tc : BitVec 12) (pd : BitVec 16) (cmd1 : Word)
  /-- ids 6 and 7: `low` is bit 0 of the id -/
  | waitRbbSixSeven (low : BitVec 1) (tc : BitVec 12) (pd : BitVec 16) (cmd1 : Word)
  /-- ids 8 to 15: `low` is bits 2:0 of the id -/
  | waitRbbHigh (low : BitVec 3) (tc : BitVec 12) (pd : BitVec 16) (cmd1 : Word)
  deriving DecidableEq, Repr

end Sys2Proof
end

