-- ==== Sys2Proof/Machine/State.lean ====
section
/-! DEFINITION. The state of the block and of the harness around it, as plain data, and the state after reset. -/

namespace Sys2Proof.Machine

/-- `PHASE`, the program counter of the state machine: fifteen values (10_state R24). -/
inductive Phase where
  | setupA
  | setupB
  | bbEmit
  | wPlace
  | wLow
  | wRise
  | wHigh
  | clExit
  | alExit
  | rFall
  | rLow
  | rSample
  | rHigh
  | signal
  | waitRbb
  deriving DecidableEq, Repr

/-- Why a step stalled (00_scope R16). -/
inductive StallReason where
  | txEmpty
  | rxFull
  deriving DecidableEq, Repr

/-- The events a step can record (46_harness R284). -/
inductive Event where
  | pop (w : Word)
  | dispatch (kind : Kind) (id : BitVec 4)
  | placement
  | latchPulse (kind : Kind)
  | readSample (b : Byte)
  | signalRaised
  | rbbReady
  | stall (reason : StallReason)
  deriving DecidableEq, Repr

/-- The control-pin vector `(reb, web, wpb, ale, cle)` (10_state R27, R31). -/
structure Ctrl where
  reb : Bool
  web : Bool
  wpb : Bool
  ale : Bool
  cle : Bool
  deriving DecidableEq, Repr

/-- The snapshot of one cycle (46_harness R281). -/
structure Snapshot where
  cycle : Nat
  ctrl : Ctrl
  /-- `LEVEL[9:0]`: chip select in 9:8, data in 7:0 -/
  bus : BitVec 10
  txocc : Nat
  rxocc : Nat
  completion : Bool
  rbb : Bool
  events : List Event
  deriving DecidableEq, Repr

/-- What a host may do between two steps (20_memory R70). -/
inductive HostAction where
  | push (w : Word)
  | pop
  | clearIrq
  | readIrq
  deriving DecidableEq, Repr

/-- Which host acts between steps (log entry 3). -/
inductive HostAgent where
  /-- the Execution Driver (46_harness R290 to R297) -/
  | driver
  /-- any other host: the actions it wants to do before the coming step, before the one after it, and so on -/
  | script (turns : List (List HostAction))
  deriving DecidableEq, Repr

/-- The state. Registers and queues are those of 10_state R20; the bookkeeping is that of 10_state R44. -/
structure State where
  /-- `CFG`, never written (10_state R34; log entry 1) -/
  cfg : Cfg
  /-- `PHASE` (10_state R24) -/
  phase : Phase
  /-- `KIND` (10_state R21) -/
  kind : Kind
  /-- `TMR`, a natural number (10_state R21) -/
  tmr : Nat
  /-- `CMD0` (10_state R21) -/
  cmd0 : Word
  /-- `CMD1` (10_state R21) -/
  cmd1 : Word
  /-- `Y` (10_state R21, R22) -/
  y : BitVec 4
  /-- `CNT` (10_state R21) -/
  cnt : BitVec 12
  /-- `PINDIR` (10_state R29) -/
  pindir : Pins
  /-- `OUT` (10_state R27) -/
  out : Pins
  /-- `IRQ` (10_state R26) -/
  irq : Bool
  /-- `TXQ`, oldest word first (10_state R35) -/
  txq : List Word
  /-- `RXQ`, oldest word first (10_state R36) -/
  rxq : List Word
  /-- `CYCLE`, the index of the next step (10_state R44) -/
  cycle : Nat
  /-- `PENDING` (10_state R44) -/
  pending : List Word
  /-- `RECEIVED`: the words the host has read from `RXQ` (10_state R44) -/
  received : List Word
  /-- `TRACE`, in cycle order (10_state R44) -/
  trace : List Snapshot
  /-- the model's own: the events of the cycle being stepped (00_scope R16) -/
  events : List Event
  /-- the model's own: who acts between steps (log entry 3) -/
  host : HostAgent
  /-- the model's own: `EXT(CYCLE)`, `EXT(CYCLE + 1)`, ... as far as they are known (log entry 2) -/
  env : List Pins
  /-- the model's own: the driver has left its loop (log entry 4) -/
  finished : Bool
  deriving DecidableEq, Repr

/-- The faults of a step. The state machine itself has none (40_dispatch R142). -/
inductive Fault where
  /-- Raised by the Execution Driver, never by the state machine, when `CYCLE` reaches `MAX_CYCLES` before the run is
  done: `TimingViolationError(cycle = MAX_CYCLES, reason = ceiling)` (46_harness R296). Safe: the spec says so. -/
  | cycleCeiling (cycle : Nat)
  deriving DecidableEq, Repr

/-- The refusals of a step or a meaning. -/
inductive Refusal where
  /-- Raised by `exec` for an instruction that has no meaning yet: none is left. Safe. -/
  | notModelled (mnemonic : String)
  /-- Raised by `step` under a `CFG` one of whose six quantities is 0: "the model has no meaning for it"
  (00_scope R11, 93 U1). Safe. -/
  | invalidConfig
  /-- Raised by a meaning in a phase that does not belong to the command's kind, which no run reaches
  (40_dispatch R151, 93 U18). Safe. -/
  | unreachablePhase (phase : Phase) (kind : Kind)
  deriving DecidableEq, Repr

/-- The state after reset under `cfg`, with the scenario's word list `words` pending (10_state R50). -/
def State.resetWith (cfg : Cfg) (words : List Word) : State where
  cfg := cfg
  phase := .setupA
  kind := .waitRbb
  tmr := 0
  cmd0 := 0
  cmd1 := 0
  y := 0
  cnt := 0
  pindir := cfg.initPindir
  out := cfg.initOut
  irq := false
  txq := []
  rxq := []
  cycle := 0
  pending := words
  received := []
  trace := []
  events := []
  host := .driver
  env := []
  finished := false

/-- The machine right after reset: the default configuration, no word pending (10_state R50, log entry 11). -/
def State.reset : State := State.resetWith Cfg.default []

end Sys2Proof.Machine
end

