-- ==== Sys2Proof/Machine/Flags.lean ====
section
/-! DEFINITION. The one flag, `IRQ` (10_state R26): there are no condition codes and no other flag. -/

namespace Sys2Proof.Machine

/-- `IRQ <- 1`, done by the `SIGNAL` step and by nothing else (43_sync_commands R222). -/
def State.raiseIrq (s : State) : State := { s with irq := true }

/-- `IRQ <- 0`, the host's `ClearIrq` (20_memory R70). -/
def State.clearIrq (s : State) : State := { s with irq := false }

end Sys2Proof.Machine
end

