-- ==== Sys2Proof/WellFormed.lean ====
section
/-! DEFINITION. Which commands exist under a configuration variant. The field widths are in the types, so the only
condition is the one of 00_scope R12 on id 5. -/

namespace Sys2Proof

/-- `i` is a command of the variant `m`: `signal` exists only under `Signal`, and the `wait_rbb` of id 5 only under
`WaitRbb` (00_scope R12, opcode_table.json column "condition"). -/
def Instr.wellFormed (m : Id5Mode) : Instr → Bool
  | .bitbang _ _ _ => true
  | .cmdLatch _ _ _ => true
  | .addrLatch _ _ _ => true
  | .dataOutput _ _ _ => true
  | .dataInput _ _ _ => true
  | .signal _ _ _ => m == .signal
  | .waitRbbFive _ _ _ => m == .waitRbb
  | .waitRbbSixSeven _ _ _ _ => true
  | .waitRbbHigh _ _ _ _ => true

end Sys2Proof
end

