-- ==== Sys2Proof/Decode.lean ====
section
/-! DEFINITION. The decoder of command words, total on any words, and after it the encoder (30_encoding R91 to R109). -/

namespace Sys2Proof

/-- `cmd_id = w[31:28]` (30_encoding R99). -/
def cmdIdField (w : Word) : BitVec 4 := w.extractLsb' 28 4

/-- `transfer_count = w[27:16]` (30_encoding R99). -/
def transferCountField (w : Word) : BitVec 12 := w.extractLsb' 16 12

/-- `pin_directions = w[15:0]` (30_encoding R99). -/
def pinDirectionsField (w : Word) : BitVec 16 := w.extractLsb' 0 16

/-- `WAIT_RBB_ID` (30_encoding R103). -/
def waitRbbId (m : Id5Mode) : Nat :=
  match m with
  | .signal => 6
  | .waitRbb => 5

/-- `classify(id)` (30_encoding R103): total on 0..15. -/
def classify (m : Id5Mode) (id : BitVec 4) : Kind :=
  if waitRbbId m ≤ id.toNat then .waitRbb
  else
    match id.toNat with
    | 0 => .bitbang
    | 1 => .cmdLatch
    | 2 => .addrLatch
    | 3 => .dataOutput
    | 4 => .dataInput
    | _ => .signal

/-- The number of payload words that follow cmd_1 in `TXQ` (30_encoding R93). -/
def payloadWords (k : Kind) (tc : BitVec 12) : Nat :=
  match k with
  | .addrLatch => tc.toNat + 1
  | .dataInput => tc.toNat + 1
  | .bitbang | .cmdLatch | .dataOutput | .signal | .waitRbb => 0

/-- The length of a frame in words, read from its first word (30_encoding R109). -/
def frameLength (m : Id5Mode) (c0 : Word) : Nat :=
  2 + payloadWords (classify m (cmdIdField c0)) (transferCountField c0)

/-- The command selected by the two words of a frame's head (30_encoding R102). Every pair of words is one (R104). -/
def decodeHead (m : Id5Mode) (c0 c1 : Word) : Instr :=
  match (cmdIdField c0).toNat with
  | 0 => .bitbang (transferCountField c0) (pinDirectionsField c0) c1
  | 1 => .cmdLatch (transferCountField c0) (pinDirectionsField c0) c1
  | 2 => .addrLatch (transferCountField c0) (pinDirectionsField c0) c1
  | 3 => .dataOutput (transferCountField c0) (pinDirectionsField c0) c1
  | 4 => .dataInput (transferCountField c0) (pinDirectionsField c0) c1
  | 5 =>
    match m with
    | .signal => .signal (transferCountField c0) (pinDirectionsField c0) c1
    | .waitRbb => .waitRbbFive (transferCountField c0) (pinDirectionsField c0) c1
  | 6 => .waitRbbSixSeven 0 (transferCountField c0) (pinDirectionsField c0) c1
  | 7 => .waitRbbSixSeven 1 (transferCountField c0) (pinDirectionsField c0) c1
  | _ => .waitRbbHigh (c0.extractLsb' 28 3) (transferCountField c0) (pinDirectionsField c0) c1

/-- Why a list of words is no command: the one reason there is (30_encoding R104, R114). -/
inductive DecodeError where
  /-- `Truncated`: the list ends inside the frame -/
  | truncated
  deriving DecidableEq, Repr

/-- Decode the head of a command from the front of a word list; the rest of the list is returned. -/
def decodeWords (m : Id5Mode) : List Word → Except DecodeError (Instr × List Word)
  | c0 :: c1 :: rest => .ok (decodeHead m c0 c1, rest)
  | [_] => .error .truncated
  | [] => .error .truncated

/-- Words from bytes, least significant byte first (20_memory R61). A last group of fewer than four bytes is no word. -/
def wordsOfBytes : List Byte → List Word
  | b0 :: b1 :: b2 :: b3 :: rest => (b3 ++ b2 ++ b1 ++ b0) :: wordsOfBytes rest
  | _ => []

/-- The bytes of a word, least significant first (20_memory R61). -/
def bytesOfWord (w : Word) : List Byte :=
  [w.extractLsb' 0 8, w.extractLsb' 8 8, w.extractLsb' 16 8, w.extractLsb' 24 8]

/-- A word list laid out in bytes (20_memory R61). -/
def bytesOfWords (ws : List Word) : List Byte := ws.flatMap bytesOfWord

/-- Decode from a serialized command stream (20_memory R61). -/
def decodeBytes (m : Id5Mode) (bs : List Byte) : Except DecodeError (Instr × List Word) :=
  decodeWords m (wordsOfBytes bs)

/-! ## The encoder -/

/-- The raw id of a command (30_encoding R102). -/
def Instr.cmdId : Instr → BitVec 4
  | .bitbang _ _ _ => 0
  | .cmdLatch _ _ _ => 1
  | .addrLatch _ _ _ => 2
  | .dataOutput _ _ _ => 3
  | .dataInput _ _ _ => 4
  | .signal _ _ _ => 5
  | .waitRbbFive _ _ _ => 5
  | .waitRbbSixSeven low _ _ _ => 0b011#3 ++ low
  | .waitRbbHigh low _ _ _ => 1#1 ++ low

/-- The kind of a command (30_encoding R102). -/
def Instr.kind : Instr → Kind
  | .bitbang _ _ _ => .bitbang
  | .cmdLatch _ _ _ => .cmdLatch
  | .addrLatch _ _ _ => .addrLatch
  | .dataOutput _ _ _ => .dataOutput
  | .dataInput _ _ _ => .dataInput
  | .signal _ _ _ => .signal
  | .waitRbbFive _ _ _ => .waitRbb
  | .waitRbbSixSeven _ _ _ _ => .waitRbb
  | .waitRbbHigh _ _ _ _ => .waitRbb

/-- The `transfer_count` field of a command. -/
def Instr.transferCount : Instr → BitVec 12
  | .bitbang tc _ _ => tc
  | .cmdLatch tc _ _ => tc
  | .addrLatch tc _ _ => tc
  | .dataOutput tc _ _ => tc
  | .dataInput tc _ _ => tc
  | .signal tc _ _ => tc
  | .waitRbbFive tc _ _ => tc
  | .waitRbbSixSeven _ tc _ _ => tc
  | .waitRbbHigh _ tc _ _ => tc

/-- The `pin_directions` field of a command. -/
def Instr.pinDirections : Instr → BitVec 16
  | .bitbang _ pd _ => pd
  | .cmdLatch _ pd _ => pd
  | .addrLatch _ pd _ => pd
  | .dataOutput _ pd _ => pd
  | .dataInput _ pd _ => pd
  | .signal _ pd _ => pd
  | .waitRbbFive _ pd _ => pd
  | .waitRbbSixSeven _ _ pd _ => pd
  | .waitRbbHigh _ _ pd _ => pd

/-- The second word of a command. -/
def Instr.cmd1 : Instr → Word
  | .bitbang _ _ c1 => c1
  | .cmdLatch _ _ c1 => c1
  | .addrLatch _ _ c1 => c1
  | .dataOutput _ _ c1 => c1
  | .dataInput _ _ c1 => c1
  | .signal _ _ c1 => c1
  | .waitRbbFive _ _ c1 => c1
  | .waitRbbSixSeven _ _ _ c1 => c1
  | .waitRbbHigh _ _ _ c1 => c1

/-- Assembly of a cmd_0 word: `cmd_id << 28 | transfer_count << 16 | pin_directions` (30_encoding R101). -/
def cmd0Word (id : BitVec 4) (tc : BitVec 12) (pd : BitVec 16) : Word := id ++ tc ++ pd

/-- The two words of a command's head. -/
def encode (i : Instr) : List Word :=
  [cmd0Word i.cmdId i.transferCount i.pinDirections, i.cmd1]

/-! ## The opcode table's bits -/

/-- The words of an instruction whose bits are `w`, numbered as the opcode table numbers them (bit 0 is bit 0 of the
first word), with every bit from `nbits` on 0: as many words as the frame has. -/
def tableWords (m : Id5Mode) (nbits w : Nat) : List Word :=
  let bits := w % 2 ^ nbits
  (List.range (frameLength m (BitVec.ofNat 32 bits))).map fun k => BitVec.ofNat 32 (bits >>> (32 * k))

/-- What the decoder reads from an instruction whose bits are `w`, under the default configuration variant (the one of
`State.reset`; log entry 6). -/
def decodeTableWord (nbits w : Nat) : Option Instr :=
  match decodeWords Cfg.default.id5Mode (tableWords Cfg.default.id5Mode nbits w) with
  | .ok (i, _) => some i
  | .error _ => none

end Sys2Proof
end

