-- ==== Sys2Proof/Machine/Operands.lean ====
section
/-! DEFINITION. Operand forms: the payload fields, the fields of `OUT`, the pin levels, the environment input, and the
command a running phase belongs to. -/

namespace Sys2Proof.Machine

/-! ## Payload and data words -/

/-- `byte = p[7:0]` of a P10 word (30_encoding R95). Bits 31:10 are ignored. -/
def p10Byte (p : Word) : Byte := p.extractLsb' 0 8

/-- `cs = p[9:8]` of a P10 word (30_encoding R95). -/
def p10Cs (p : Word) : BitVec 2 := p.extractLsb' 8 2

/-- A D8 word: the byte zero-extended to 32 bits (30_encoding R97). -/
def d8Word (b : Byte) : Word := b.setWidth 32

/-! ## The fields of `OUT` (10_state R27) -/

/-- Pin numbers (20_memory R67). -/
def pinCle : Nat := 10
/-- ALE -/
def pinAle : Nat := 11
/-- WPB -/
def pinWpb : Nat := 12
/-- WEB -/
def pinWeb : Nat := 13
/-- REB -/
def pinReb : Nat := 14
/-- RBB -/
def pinRbb : Nat := 15

/-- Write one bit of a pin vector. -/
def setBit (v : Pins) (k : Nat) (b : Bool) : Pins :=
  if b then v ||| BitVec.twoPow 16 k else v &&& ~~~(BitVec.twoPow 16 k)

/-- `OUT.io <- b` -/
def setIo (o : Pins) (b : Byte) : Pins := (o &&& 0xFF00#16) ||| b.setWidth 16

/-- `OUT.cs <- c` -/
def setCs (o : Pins) (c : BitVec 2) : Pins := (o &&& 0xFCFF#16) ||| (c.setWidth 16 <<< 8)

/-- `OUT.io <- p[7:0]`, `OUT.cs <- p[9:8]`: a P10 word put on the bus latches (30_encoding R95). -/
def setPayload (o : Pins) (p : Word) : Pins := setCs (setIo o (p10Byte p)) (p10Cs p)

/-! ## Pin levels -/

/-- `EXT(c)` of the current cycle: the level the environment is known to give, or the free value of this cycle
(00_scope R13; log entry 2). -/
def State.ext (s : State) : Pins :=
  match s.env with
  | e :: _ => e
  | [] => Config.ext s.cycle

/-- `LEVEL`, all sixteen pins: the latch where the pin is an output, `EXT(c)` where it is an input (10_state R30). -/
def State.levels (s : State) : Pins := (s.pindir &&& s.out) ||| (~~~s.pindir &&& s.ext)

/-- `LEVEL(i)` (10_state R30). -/
def State.level (s : State) (i : Nat) : Bool := s.levels.getLsbD i

/-- `LEVEL[7:0]`, what `R_SAMPLE` reads (42_transfer_commands R203, R206). -/
def State.sampledByte (s : State) : Byte := s.levels.extractLsb' 0 8

/-- `LEVEL[9:0]`, the data-bus pin vector (10_state R31). -/
def State.busLevels (s : State) : BitVec 10 := s.levels.extractLsb' 0 10

/-- The control-pin vector, pins 14 to 10 (10_state R31). -/
def State.ctrlLevels (s : State) : Ctrl where
  reb := s.level pinReb
  web := s.level pinWeb
  wpb := s.level pinWpb
  ale := s.level pinAle
  cle := s.level pinCle

/-- `LEVEL[14:10]` as a 5-bit number, `reb` most significant (10_state R31). -/
def Ctrl.toBits (c : Ctrl) : BitVec 5 :=
  BitVec.ofBool c.reb ++ BitVec.ofBool c.web ++ BitVec.ofBool c.wpb ++ BitVec.ofBool c.ale ++ BitVec.ofBool c.cle

/-! ## Configuration look-ups -/

/-- `WPB_TABLE[KIND]` (40_dispatch R148). -/
def wpbLevel (t : WpbTable) (k : Kind) : Bool :=
  match k with
  | .bitbang => t.bitbang
  | .cmdLatch => t.cmdLatch
  | .addrLatch => t.addrLatch
  | .dataOutput => t.dataOutput
  | .dataInput => t.dataInput
  | .signal => t.signal
  | .waitRbb => t.waitRbb

/-! ## The command in flight -/

/-- The command a phase after SETUP belongs to: its kind is `KIND`, its operands are those of `CMD0` and `CMD1`
(10_state R21, R25). In every state a run reaches it is the command dispatched last. -/
def State.inFlight (s : State) : Instr :=
  let tc := transferCountField s.cmd0
  let pd := pinDirectionsField s.cmd0
  match s.kind with
  | .bitbang => .bitbang tc pd s.cmd1
  | .cmdLatch => .cmdLatch tc pd s.cmd1
  | .addrLatch => .addrLatch tc pd s.cmd1
  | .dataOutput => .dataOutput tc pd s.cmd1
  | .dataInput => .dataInput tc pd s.cmd1
  | .signal => .signal tc pd s.cmd1
  | .waitRbb =>
    if cmdIdField s.cmd0 = 5 then .waitRbbFive tc pd s.cmd1
    else if (cmdIdField s.cmd0).getLsbD 3 then .waitRbbHigh (s.cmd0.extractLsb' 28 3) tc pd s.cmd1
    else .waitRbbSixSeven (s.cmd0.extractLsb' 28 1) tc pd s.cmd1

end Sys2Proof.Machine
end

