-- ==== Sys2Proof/Machine/Ops.lean ====
section
/-! DEFINITION. The shared operations: control transfer, events, stalls, timers, loop control, the dispatch of SETUP,
the write pulse and the read pulse. The state machine takes no exception and returns from none (60_exceptions R340,
R351, R353), so there is no operation for either. -/

namespace Sys2Proof.Machine

/-- `PHASE <- p` (00_scope R16). -/
def State.goto (s : State) (p : Phase) : State := { s with phase := p }

/-- `event(e)`: append to this cycle's event list (00_scope R16). -/
def State.record (s : State) (e : Event) : State := { s with events := s.events ++ [e] }

/-- Write the output latches. -/
def State.setOut (s : State) (o : Pins) : State := { s with out := o }

/-- `TMR <- n` -/
def State.setTmr (s : State) (n : Nat) : State := { s with tmr := n }

/-- `CNT <- c` -/
def State.setCnt (s : State) (c : BitVec 12) : State := { s with cnt := c }

/-- Write `TXQ` (a pop removes the head, 10_state R35). -/
def State.setTxq (s : State) (q : List Word) : State := { s with txq := q }

/-- Write `RXQ` (a push appends at the tail, 10_state R36). -/
def State.setRxq (s : State) (q : List Word) : State := { s with rxq := q }

/-- `stall(reason)`: only the event is recorded (00_scope R16, 20_memory R80, R81). -/
def State.stalled (s : State) (r : StallReason) : State := s.record (.stall r)

/-! ## Counters (40_dispatch R150, R151) -/

/-- `loop_back(first, exit)`: test `CNT`, then decrement (40_dispatch R150). -/
def loopBack (first exit : Phase) (s : State) : State :=
  if s.cnt = 0 then s.goto exit else (s.setCnt (s.cnt - 1)).goto first

/-- The first cycle of a timed phase pair of `t` cycles: load `TMR` with `t - 1`, go to the waiting phase, or straight
on when `t = 1` (40_dispatch R151). -/
def startTimed (t : Nat) (wait : Phase) (next : State → State) (s : State) : State :=
  if t = 1 then next (s.setTmr (t - 1)) else (s.setTmr (t - 1)).goto wait

/-- A waiting cycle: `TMR <- TMR - 1`, and on when the new value is 0 (40_dispatch R151). -/
def waitTimed (wait : Phase) (next : State → State) (s : State) : State :=
  if s.tmr - 1 = 0 then next (s.setTmr (s.tmr - 1)) else (s.setTmr (s.tmr - 1)).goto wait

/-! ## SETUP's last part -/

/-- The completing SETUP cycle for a command of kind `k`: cmd_1 is loaded into `CMD1` (40_dispatch R144) and `dispatch()`
(40_dispatch R145) writes everything that does not depend on the kind. -/
def dispatch (k : Kind) (id : BitVec 4) (tc : BitVec 12) (pd : BitVec 16) (c1 : Word) (s : State) : State :=
  { s with
    cmd1 := c1
    pindir := pd
    cnt := tc
    y := id
    kind := k
    out := setBit s.out pinWpb (wpbLevel s.cfg.wpbTable k)
    events := s.events ++ [.dispatch k id] }

/-! ## The write pulse (41_pin_commands R173 to R180) -/

/-- The placing part of `W_PLACE` with payload `p`: `web` falls and the payload goes on the bus (41_pin_commands R176). -/
def placePayload (p : Word) (s : State) : State :=
  startTimed s.cfg.tSetup .wLow (fun u => u.goto .wRise)
    ((s.setOut (setPayload (setBit s.out pinWeb false) p)).record .placement)

/-- `W_PLACE` when the payload is popped from `TXQ` (`KIND` in `AL, DI`, 41_pin_commands R176): stalls on an empty queue
before `web` falls. -/
def placeFromTxq (s : State) : State :=
  match s.txq with
  | [] => s.stalled .txEmpty
  | p :: rest => placePayload p ((s.setTxq rest).record (.pop p))

/-- `W_LOW` (41_pin_commands R177). -/
def holdLow (s : State) : State := waitTimed .wLow (fun u => u.goto .wRise) s

/-- `W_RISE`, with `after` the successor of the pulse (41_pin_commands R178, R180). -/
def latchPulse (after : State → State) (s : State) : State :=
  startTimed s.cfg.tHold .wHigh after ((s.setOut (setBit s.out pinWeb true)).record (.latchPulse s.kind))

/-- `W_HIGH`, with `after` the successor of the pulse (41_pin_commands R179, R180). -/
def holdHigh (after : State → State) (s : State) : State := waitTimed .wHigh after s

/-! ## The read pulse (42_transfer_commands R200 to R205) -/

/-- `R_FALL` (42_transfer_commands R201). -/
def readFall (s : State) : State :=
  startTimed s.cfg.tRsettle .rLow (fun u => u.goto .rSample) (s.setOut (setBit s.out pinReb false))

/-- `R_LOW` (42_transfer_commands R202). -/
def readLow (s : State) : State := waitTimed .rLow (fun u => u.goto .rSample) s

/-- The successor of a finished read pulse (40_dispatch R150). -/
def afterRead (s : State) : State := loopBack .rFall .setupA s

/-- `R_SAMPLE` (42_transfer_commands R203): stalls on a full `RXQ`, else samples, pushes and raises `reb`. -/
def readSample (s : State) : State :=
  if s.rxq.length < s.cfg.rxDepth then
    startTimed s.cfg.tHold .rHigh afterRead
      (((s.setRxq (s.rxq ++ [d8Word s.sampledByte])).record (.readSample s.sampledByte)).setOut
        (setBit s.out pinReb true))
  else s.stalled .rxFull

/-- `R_HIGH` (42_transfer_commands R204). -/
def readHigh (s : State) : State := waitTimed .rHigh afterRead s

/-! ## The ready/busy wait -/

/-- `WAIT_RBB` (43_sync_commands R226): a level test of pin 15, once per cycle. -/
def pollReady (s : State) : State :=
  if s.level pinRbb then (s.record .rbbReady).goto .setupA else s.goto .waitRbb

/-- The cycles of a `wait_rbb` of any id (43_sync_commands R225: "All those ids behave identically"). -/
def waitRbbCycle (id : BitVec 4) (tc : BitVec 12) (pd : BitVec 16) (c1 : Word) (s : State) :
    Host.Outcome State Fault Refusal :=
  match s.phase with
  | .setupA | .setupB => .next ((dispatch .waitRbb id tc pd c1 s).goto .waitRbb)
  | .waitRbb => .next (pollReady s)
  | .bbEmit | .wPlace | .wLow | .wRise | .wHigh | .clExit | .alExit | .rFall | .rLow | .rSample | .rHigh | .signal =>
    .refused (.unreachablePhase s.phase .waitRbb)

end Sys2Proof.Machine
end

