-- ==== Sys2Proof/Machine/PinCommands.lean ====
section
/-! DEFINITION. The meanings of `bitbang` and `cmd_latch` (41_pin_commands). A meaning is ONE CYCLE of the command: in
SETUP (its words popped) the dispatch, else the cycle of the phase the machine is in. -/

namespace Sys2Proof.Machine

/-- `bitbang` (41_pin_commands R170, R171). -/
def execBitbang (tc : BitVec 12) (pd : BitVec 16) (c1 : Word) (s : State) : Host.Outcome State Fault Refusal :=
  match s.phase with
  | .setupA | .setupB => .next ((dispatch .bitbang 0 tc pd c1 s).goto .bbEmit)
  | .bbEmit => .next (((s.setOut (setPayload s.out s.cmd1)).record .placement).goto .setupA)
  | .wPlace | .wLow | .wRise | .wHigh | .clExit | .alExit | .rFall | .rLow | .rSample | .rHigh | .signal | .waitRbb =>
    .refused (.unreachablePhase s.phase .bitbang)

/-- Raise `cle` at the dispatch of `cmd_latch` (40_dispatch R145, R147). -/
def raiseCle (s : State) : State := s.setOut (setBit s.out pinCle true)

/-- `cmd_latch` (41_pin_commands R181): one write pulse with `cle` high, payload from `CMD1`, then `CL_EXIT`. -/
def execCmdLatch (tc : BitVec 12) (pd : BitVec 16) (c1 : Word) (s : State) : Host.Outcome State Fault Refusal :=
  match s.phase with
  | .setupA | .setupB => .next ((raiseCle (dispatch .cmdLatch 1 tc pd c1 s)).goto .wPlace)
  | .wPlace => .next (placePayload s.cmd1 s)
  | .wLow => .next (holdLow s)
  | .wRise => .next (latchPulse (fun u => u.goto .clExit) s)
  | .wHigh => .next (holdHigh (fun u => u.goto .clExit) s)
  | .clExit => .next ((s.setOut (setBit s.out pinCle false)).goto .setupA)
  | .bbEmit | .alExit | .rFall | .rLow | .rSample | .rHigh | .signal | .waitRbb =>
    .refused (.unreachablePhase s.phase .cmdLatch)

end Sys2Proof.Machine
end

