-- ==== Sys2Proof/Machine/SyncCommands.lean ====
section
/-! DEFINITION. The meanings of the synchronising commands `signal` and `wait_rbb` (43_sync_commands). A meaning is ONE
CYCLE of the command. -/

namespace Sys2Proof.Machine

/-- `signal` (43_sync_commands R220, R222). -/
def execSignal (tc : BitVec 12) (pd : BitVec 16) (c1 : Word) (s : State) : Host.Outcome State Fault Refusal :=
  match s.phase with
  | .setupA | .setupB => .next ((dispatch .signal 5 tc pd c1 s).goto .signal)
  | .signal => .next ((s.raiseIrq.record .signalRaised).goto .setupA)
  | .bbEmit | .wPlace | .wLow | .wRise | .wHigh | .clExit | .alExit | .rFall | .rLow | .rSample | .rHigh | .waitRbb =>
    .refused (.unreachablePhase s.phase .signal)

/-- `wait_rbb` with id 5, under `ID5_MODE = WaitRbb` (43_sync_commands R225, R226). -/
def execWaitRbbFive (tc : BitVec 12) (pd : BitVec 16) (c1 : Word) (s : State) : Host.Outcome State Fault Refusal :=
  waitRbbCycle 5 tc pd c1 s

/-- `wait_rbb` with id 6 or 7 (43_sync_commands R225, R226). -/
def execWaitRbbSixSeven (low : BitVec 1) (tc : BitVec 12) (pd : BitVec 16) (c1 : Word) (s : State) :
    Host.Outcome State Fault Refusal :=
  waitRbbCycle (0b011#3 ++ low) tc pd c1 s

/-- `wait_rbb` with id 8 to 15 (43_sync_commands R225, R226; 30_encoding R104). -/
def execWaitRbbHigh (low : BitVec 3) (tc : BitVec 12) (pd : BitVec 16) (c1 : Word) (s : State) :
    Host.Outcome State Fault Refusal :=
  waitRbbCycle (1#1 ++ low) tc pd c1 s

end Sys2Proof.Machine
end

