-- ==== Sys2Proof/Machine/TransferCommands.lean ====
section
/-! DEFINITION. The meanings of the looping transfer commands `addr_latch`, `data_output` and `data_input`
(42_transfer_commands). A meaning is ONE CYCLE of the command. -/

namespace Sys2Proof.Machine

/-- Raise `ale` at the dispatch of `addr_latch` (40_dispatch R145, R147). -/
def raiseAle (s : State) : State := s.setOut (setBit s.out pinAle true)

/-- `addr_latch` (42_transfer_commands R190, R191, R193): one write pulse per payload word with `ale` high, then `AL_EXIT`. -/
def execAddrLatch (tc : BitVec 12) (pd : BitVec 16) (c1 : Word) (s : State) : Host.Outcome State Fault Refusal :=
  match s.phase with
  | .setupA | .setupB => .next ((raiseAle (dispatch .addrLatch 2 tc pd c1 s)).goto .wPlace)
  | .wPlace => .next (placeFromTxq s)
  | .wLow => .next (holdLow s)
  | .wRise => .next (latchPulse (loopBack .wPlace .alExit) s)
  | .wHigh => .next (holdHigh (loopBack .wPlace .alExit) s)
  | .alExit => .next ((s.setOut (setBit s.out pinAle false)).goto .setupA)
  | .bbEmit | .clExit | .rFall | .rLow | .rSample | .rHigh | .signal | .waitRbb =>
    .refused (.unreachablePhase s.phase .addrLatch)

/-- `data_output` (42_transfer_commands R200): one read pulse and one pushed byte per iteration. -/
def execDataOutput (tc : BitVec 12) (pd : BitVec 16) (c1 : Word) (s : State) : Host.Outcome State Fault Refusal :=
  match s.phase with
  | .setupA | .setupB => .next ((dispatch .dataOutput 3 tc pd c1 s).goto .rFall)
  | .rFall => .next (readFall s)
  | .rLow => .next (readLow s)
  | .rSample => .next (readSample s)
  | .rHigh => .next (readHigh s)
  | .bbEmit | .wPlace | .wLow | .wRise | .wHigh | .clExit | .alExit | .signal | .waitRbb =>
    .refused (.unreachablePhase s.phase .dataOutput)

/-- `data_input` (42_transfer_commands R210, R211): one write pulse per payload word, no latch enable, no exit phase. -/
def execDataInput (tc : BitVec 12) (pd : BitVec 16) (c1 : Word) (s : State) : Host.Outcome State Fault Refusal :=
  match s.phase with
  | .setupA | .setupB => .next ((dispatch .dataInput 4 tc pd c1 s).goto .wPlace)
  | .wPlace => .next (placeFromTxq s)
  | .wLow => .next (holdLow s)
  | .wRise => .next (latchPulse (loopBack .wPlace .setupA) s)
  | .wHigh => .next (holdHigh (loopBack .wPlace .setupA) s)
  | .bbEmit | .clExit | .alExit | .rFall | .rLow | .rSample | .rHigh | .signal | .waitRbb =>
    .refused (.unreachablePhase s.phase .dataInput)

end Sys2Proof.Machine
end

