-- ==== Sys2Proof/Machine/Dispatch.lean ====
section
/-! DEFINITION. One arm per command: one cycle of it (40_dispatch R140, R151). -/

namespace Sys2Proof.Machine

def exec (i : Instr) (s : State) : Host.Outcome State Fault Refusal :=
  match i with
  | .bitbang tc pd c1 => Sys2Proof.Machine.execBitbang tc pd c1 s
  | .cmdLatch tc pd c1 => Sys2Proof.Machine.execCmdLatch tc pd c1 s
  | .addrLatch tc pd c1 => Sys2Proof.Machine.execAddrLatch tc pd c1 s
  | .dataOutput tc pd c1 => Sys2Proof.Machine.execDataOutput tc pd c1 s
  | .dataInput tc pd c1 => Sys2Proof.Machine.execDataInput tc pd c1 s
  | .signal tc pd c1 => Sys2Proof.Machine.execSignal tc pd c1 s
  | .waitRbbFive tc pd c1 => Sys2Proof.Machine.execWaitRbbFive tc pd c1 s
  | .waitRbbSixSeven low tc pd c1 => Sys2Proof.Machine.execWaitRbbSixSeven low tc pd c1 s
  | .waitRbbHigh low tc pd c1 => Sys2Proof.Machine.execWaitRbbHigh low tc pd c1 s

end Sys2Proof.Machine
end

