-- ==== Sys2Proof/Machine/Fetch.lean ====
section
/-! DEFINITION. Fetching a command: the pops of the SETUP phase, the command of a running phase, and one cycle of the
state machine. -/

namespace Sys2Proof.Machine

/-- What one cycle finds to do. -/
inductive Fetched where
  /-- a cycle of this command, on this state -/
  | command (i : Instr) (s : State)
  /-- SETUP could not complete; this is the state the cycle ends in -/
  | stalled (s : State)
  deriving DecidableEq, Repr

/-- Pop a word into `CMD0` and go to `SETUP_B` (40_dispatch R144). -/
def loadCmd0 (w : Word) (rest : List Word) (s : State) : State :=
  ({ s with cmd0 := w, txq := rest, phase := .setupB } : State).record (.pop w)

/-- The SETUP_B part: pop cmd_1 and decode, or stall (40_dispatch R144). -/
def fetchCmd1 (s : State) : Fetched :=
  match s.txq with
  | [] => .stalled (s.stalled .txEmpty)
  | w :: rest => .command (decodeHead s.cfg.id5Mode s.cmd0 w) ((s.setTxq rest).record (.pop w))

/-- The command whose cycle this is (40_dispatch R140, R144). In SETUP_A as many of the two pops are done as `TXQ` has
words for. In a running phase it is the command in flight. -/
def fetch (s : State) : Fetched :=
  match s.phase with
  | .setupA =>
    match s.txq with
    | [] => .stalled (s.stalled .txEmpty)
    | w :: rest => fetchCmd1 (loadCmd0 w rest s)
  | .setupB => fetchCmd1 s
  | .bbEmit | .wPlace | .wLow | .wRise | .wHigh | .clExit | .alExit | .rFall | .rLow | .rSample | .rHigh | .signal
  | .waitRbb => .command s.inFlight s

/-- One step of the state machine alone, with the `EXT(c)` that State holds (40_dispatch R140). -/
def machineCycle (s : State) : Host.Outcome State Fault Refusal :=
  match fetch s with
  | .command i t => exec i t
  | .stalled t => .next t

/-- Place an instruction of the opcode table where the next SETUP finds it: its head in `TXQ` (when `TX_DEPTH` is 1, its
first word already in `CMD0`), its payload words, all zero, pending for the driver, and the run not over. -/
def placeInstruction (s : State) (nbits w : Nat) : State :=
  match tableWords s.cfg.id5Mode nbits w with
  | c0 :: c1 :: payload =>
    if 2 ≤ s.cfg.txDepth then
      { s with phase := .setupA, txq := [c0, c1], pending := payload, finished := false }
    else { s with phase := .setupB, cmd0 := c0, txq := [c1], pending := payload, finished := false }
  | [_] => s
  | [] => s

end Sys2Proof.Machine
end

