-- ==== Sys2Proof/Machine/HostPort.lean ====
section
/-! DEFINITION. The host between two steps: the actions of 20_memory R70, the Execution Driver's services
(46_harness R291, R292), and the turn of whichever host State names. -/

namespace Sys2Proof.Machine

/-- One host action: `none` when its condition does not hold, in which case the host has no move and blocks
(20_memory R70). A popped word goes to `RECEIVED`. -/
def hostAct (a : HostAction) (s : State) : Option State :=
  match a with
  | .push w => if s.txq.length < s.cfg.txDepth then some (s.setTxq (s.txq ++ [w])) else none
  | .pop =>
    match s.rxq with
    | [] => none
    | w :: rest => some { s with rxq := rest, received := s.received ++ [w] }
  | .clearIrq => some s.clearIrq
  | .readIrq => some s

/-- What `ReadIrq` returns (20_memory R70). -/
def readIrq (s : State) : Bool := s.irq

/-- Do the actions of one turn in order until one blocks; the blocked action and those after it are left over. -/
def runActions : List HostAction → State → List HostAction × State
  | [], s => ([], s)
  | a :: as, s =>
    match hostAct a s with
    | some t => runActions as t
    | none => (a :: as, s)

/-- The turn of a scripted host. What a blocked host could not do stands before its next turn (20_memory R70: it
blocks). When the script is used up the host does nothing. -/
def scriptTurn (turns : List (List HostAction)) (s : State) : State :=
  match turns with
  | [] => s
  | turn :: later =>
    match runActions turn s with
    | ([], t) => { t with host := .script later }
    | (left, t) => { t with host := .script ((left ++ later.headD []) :: later.tail) }

/-- `demand(S)`: how many words the coming step will try to pop (46_harness R291). -/
def demand (s : State) : Nat :=
  match s.phase with
  | .setupA => 2
  | .setupB => 1
  | .wPlace =>
    match s.kind with
    | .addrLatch => 1
    | .dataInput => 1
    | .bitbang | .cmdLatch | .dataOutput | .signal | .waitRbb => 0
  | .bbEmit | .wLow | .wRise | .wHigh | .clExit | .alExit | .rFall | .rLow | .rSample | .rHigh | .signal | .waitRbb => 0

/-- Push pending words while the queue holds fewer than `need`: the new queue and what stays pending. -/
def feed (need : Nat) : List Word → List Word → List Word × List Word
  | q, [] => (q, [])
  | q, w :: ws => if q.length < need then feed need (q ++ [w]) ws else (q, w :: ws)

/-- `service_pop` (46_harness R291): push on demand only, within `TX_DEPTH`. -/
def servicePop (s : State) : State :=
  let r := feed (min (demand s) s.cfg.txDepth) s.txq s.pending
  { s with txq := r.1, pending := r.2 }

/-- Read the whole of `RXQ` into `RECEIVED`. -/
def drain (s : State) : State := { s with received := s.received ++ s.rxq, rxq := [] }

/-- `service_push` (46_harness R292): drain `RXQ` when the coming step is a blocked `R_SAMPLE`. -/
def servicePush (s : State) : State :=
  if s.phase = .rSample ∧ ¬ s.rxq.length < s.cfg.rxDepth then drain s else s

/-- The host's turn before a step (46_harness R293, 20_memory R75). -/
def hostTurn (s : State) : State :=
  match s.host with
  | .driver => servicePush (servicePop s)
  | .script turns => scriptTurn turns s

end Sys2Proof.Machine
end

