-- ==== Sys2Proof/Machine/Trace.lean ====
section
/-! DEFINITION. The Trace Record and the end of a cycle: the snapshot (46_harness R281), `done` (R294), the final drain
(R295), the cycle index. -/

namespace Sys2Proof.Machine

/-- The snapshot of the cycle just stepped, from the new state and the same `EXT(c)` (46_harness R281). -/
def snapshot (s : State) : Snapshot where
  cycle := s.cycle
  ctrl := s.ctrlLevels
  bus := s.busLevels
  txocc := s.txq.length
  rxocc := s.rxq.length
  completion := s.irq
  rbb := s.level pinRbb
  events := s.events

/-- Is the command dispatched last a terminator, `KIND in {WR, SIG}` (46_harness R294)? -/
def isTerminator (k : Kind) : Bool :=
  match k with
  | .waitRbb => true
  | .signal => true
  | .bitbang | .cmdLatch | .addrLatch | .dataOutput | .dataInput => false

/-- `done(S, ext)`, evaluated on the state after the step (46_harness R294). -/
def done (s : State) : Bool :=
  s.pending.isEmpty && s.txq.isEmpty && decide (s.phase = .setupA) && isTerminator s.kind && s.level pinRbb

/-- Is the host the Execution Driver? -/
def isDriver (h : HostAgent) : Bool :=
  match h with
  | .driver => true
  | .script _ => false

/-- The start of a cycle: its event list is empty (46_harness R284). -/
def beginCycle (s : State) : State := { s with events := [] }

/-- The end of a cycle: the snapshot joins the trace; under the driver a run that is `done` ends here, with the final
drain, and otherwise the cycle index and the environment move on (46_harness R293 to R295). -/
def endCycle (s : State) : State :=
  let s' := { s with trace := s.trace ++ [snapshot s] }
  if isDriver s.host && done s then { drain s' with finished := true }
  else { s' with cycle := s.cycle + 1, env := s.env.tail }

/-- Has the driver reached its cycle ceiling (46_harness R296)? The ceiling is the driver's alone. -/
def atCeiling (s : State) : Bool := isDriver s.host && decide (s.cfg.maxCycles ≤ s.cycle)

end Sys2Proof.Machine
end

