-- ==== Sys2Proof/Machine/Step.lean ====
section
/-! DEFINITION. One step: the host's turn, one cycle of the state machine, the snapshot. -/

namespace Sys2Proof.Machine

/-- One cycle of the block with its host and environment (40_dispatch R140; 46_harness R293). Under an invalid
configuration there is no meaning (00_scope R11); a run the driver has ended stays as it is (46_harness R294); the
driver stops at its ceiling (46_harness R296). -/
def step (s : State) : Host.Outcome State Fault Refusal :=
  if s.cfg.valid = false then .refused .invalidConfig
  else if s.finished = true then .next s
  else if atCeiling s = true then .fault (.cycleCeiling s.cfg.maxCycles)
  else
    match machineCycle (beginCycle (hostTurn s)) with
    | .next t => .next (endCycle t)
    | .fault f => .fault f
    | .refused r => .refused r

/-- `s` with the instruction whose bits are `w` placed where the next SETUP fetches (log entry 12). -/
def State.withFetchWord (s : State) (nbits w : Nat) : State := placeInstruction s nbits w

end Sys2Proof.Machine
end

