-- ==== Sys2Proof/Machine/Errors.lean ====
section
/-! DEFINITION. The five errors of the functions around the state machine (60_exceptions R341). They are results of pure
functions and change no state (60_exceptions R340). -/

namespace Sys2Proof.Machine

/-- What an `EncodingRangeError` names: the field and the offending value (60_exceptions R342). -/
inductive RangeField where
  | cmdId (value : Nat)
  | transferCount (value : Nat)
  | pinDirections (value : Nat)
  | payloadLength (value : Nat)
  | payload (index value : Nat)
  | count (value : Nat)
  | kind (value : Kind)
  | byte (value : Nat)
  deriving DecidableEq, Repr

/-- Why a scenario is malformed (60_exceptions R343). -/
inductive MalformedReason where
  | truncated
  | empty
  | notTerminated (last : Kind)
  deriving DecidableEq, Repr

/-- The reasons of a `TimingViolationError` (60_exceptions R344). -/
inductive TimingReason where
  | gap
  | setup
  | hold
  | latchEnableOrder
  | settle
  | byteCount
  | ceiling
  deriving DecidableEq, Repr

/-- Which queue a `QueueOverflowError` names (60_exceptions R345). -/
inductive QueueName where
  | tx
  | rx
  deriving DecidableEq, Repr

/-- The five errors (60_exceptions R341). -/
inductive HarnessError where
  | encodingRange (field : RangeField)
  | malformedScenario (reason : MalformedReason)
  | timingViolation (cycle : Nat) (reason : TimingReason)
  | queueOverflow (cycle : Nat) (queue : QueueName)
  | unknownScenario (name : String)
  deriving DecidableEq, Repr

/-- The builder parameters whose range is narrower than their type, and the sum of the two cycle counts
(45_scenarios R243). -/
inductive ParamRange where
  | idLen
  | colCycles
  | rowCycles
  | addressCycles
  | readLen
  | progData
  deriving DecidableEq, Repr

/-- Why a scenario run gives no result: one of the five errors, or a refusal of the configuration or of a builder
parameter. The spec names no error for either refusal (00_scope R11; 45_scenarios R243; log entries 9, 23 and 24). -/
inductive RunStop where
  | error (e : HarnessError)
  | refused (r : Refusal)
  /-- Answered by `build` for a parameter of the scenario outside its range of 45_scenarios R243 that no encoding check
  rejects, with the value found. Safe. -/
  | paramOutOfRange (which : ParamRange) (value : Nat)
  deriving DecidableEq, Repr

end Sys2Proof.Machine
end

