-- ==== Sys2Proof/Machine/Driver.lean ====
section
/-! DEFINITION. The Execution Driver's loop over `step` (46_harness R293). Its services, its `done` test, its final drain
and its ceiling are parts of `step` under the host `driver`. -/

namespace Sys2Proof.Machine

/-- The harness's environment input: `rbb_in(c) << 15 | chip_io(c)`, bits 14 to 8 zero (00_scope R13). -/
def harnessExt (rbbIn : Nat → Bool) (chipIo : Nat → Byte) (c : Nat) : Pins :=
  BitVec.ofBool (rbbIn c) ++ 0#7 ++ chipIo c

/-- The loop of 46_harness R293, at most `n` more steps: before each step the environment's level of that cycle is set;
the loop ends when the driver's `done` has held. Running out of steps is the ceiling (R296). -/
def driverLoop (ext : Nat → Pins) : Nat → State → Except RunStop State
  | 0, s => .error (.error (.timingViolation s.cfg.maxCycles .ceiling))
  | n + 1, s =>
    match step { s with env := [ext s.cycle] } with
    | .next t => if t.finished = true then .ok t else driverLoop ext n t
    | .fault (.cycleCeiling c) => .error (.error (.timingViolation c .ceiling))
    | .refused r => .error (.refused r)

/-- `run(words, CFG, rbb_in, chip_io)`: the state in which the driver leaves its loop, whose `trace` and `received` are
the run's results (46_harness R293). -/
def runWords (cfg : Cfg) (words : List Word) (rbbIn : Nat → Bool) (chipIo : Nat → Byte) : Except RunStop State :=
  if cfg.valid = false then .error (.refused .invalidConfig)
  else driverLoop (harnessExt rbbIn chipIo) cfg.maxCycles (State.resetWith cfg words)

end Sys2Proof.Machine
end

