-- ==== Sys2Proof/Machine/Codec.lean ====
section
/-! DEFINITION. The Command Codec: pure functions between commands and whole frames of words (30_encoding R110 to R121),
and the command notation (R122). -/

namespace Sys2Proof.Machine

/-- The structured command (30_encoding R111). -/
structure Command where
  /-- the raw id, kept for the round trip -/
  cmdId : BitVec 4
  /-- `classify(cmd_id)` -/
  kind : Kind
  /-- the wire value -/
  transferCount : BitVec 12
  /-- `transfer_count + 1` -/
  repeats : Nat
  pinDirections : BitVec 16
  payload : List (BitVec 10)
  deriving DecidableEq, Repr

/-- `paylen(cmd_id, transfer_count)` (30_encoding R111). -/
def paylen (id tc : Nat) : Nat :=
  match id with
  | 0 => 1
  | 1 => 1
  | 2 => tc + 1
  | 4 => tc + 1
  | _ => 0

/-- Check 5 of `encode`: every payload item in 0..1023, ascending (30_encoding R112). -/
def firstBadItem : Nat → List Nat → Option RangeField
  | _, [] => none
  | k, v :: vs => if v ≤ 1023 then firstBadItem (k + 1) vs else some (.payload k v)

/-- The five checks of `encode`, the first failure first (30_encoding R112). -/
def encodeCheck (id tc pd : Nat) (payload : List Nat) : Option RangeField :=
  if ¬ id ≤ 15 then some (.cmdId id)
  else if ¬ tc ≤ 4095 then some (.transferCount tc)
  else if ¬ pd ≤ 0xFFFF then some (.pinDirections pd)
  else if payload.length ≠ paylen id tc then some (.payloadLength payload.length)
  else firstBadItem 0 payload

/-- The words `encode` answers when its checks pass (30_encoding R112). -/
def encodeResult (id tc pd : Nat) (payload : List Nat) : List Word :=
  let c0 := cmd0Word (BitVec.ofNat 4 id) (BitVec.ofNat 12 tc) (BitVec.ofNat 16 pd)
  let ws := payload.map (BitVec.ofNat 32)
  match id with
  | 0 => c0 :: ws
  | 1 => c0 :: ws
  | 2 => c0 :: 0 :: ws
  | 4 => c0 :: 0 :: ws
  | _ => [c0, 0]

/-- `encode(cmd_id, transfer_count, pin_directions, payload)`; `transfer_count` is the wire value (30_encoding R112). -/
def encodeFrame (id tc pd : Nat) (payload : List Nat) : Except HarnessError (List Word) :=
  match encodeCheck id tc pd payload with
  | some f => .error (.encodingRange f)
  | none => .ok (encodeResult id tc pd payload)

/-- `canonical(kind)` (30_encoding R105, R113). -/
def canonicalId (m : Id5Mode) (k : Kind) : Nat :=
  match k with
  | .bitbang => 0
  | .cmdLatch => 1
  | .addrLatch => 2
  | .dataOutput => 3
  | .dataInput => 4
  | .signal => 5
  | .waitRbb => waitRbbId m

/-- The looping kinds (30_encoding R92). -/
def isLooping (k : Kind) : Bool :=
  match k with
  | .addrLatch => true
  | .dataOutput => true
  | .dataInput => true
  | .bitbang | .cmdLatch | .signal | .waitRbb => false

/-- `encode_cmd(kind, count, pin_directions, payload)` (30_encoding R113; order of its checks: log entry 15). -/
def encodeCmd (m : Id5Mode) (k : Kind) (count pd : Nat) (payload : List Nat) : Except HarnessError (List Word) :=
  if k = .signal ∧ m = .waitRbb then .error (.encodingRange (.kind .signal))
  else if ¬ (1 ≤ count ∧ count ≤ 4096) then .error (.encodingRange (.count count))
  else if isLooping k = false ∧ count ≠ 1 then .error (.encodingRange (.count count))
  else encodeFrame (canonicalId m k) (count - 1) pd payload

/-- The P10 field of a word as `decode` reads it: `w[9:0]` (30_encoding R114). -/
def p10Field (w : Word) : BitVec 10 := w.extractLsb' 0 10

/-- `decode(words)`: one frame from the front of a list (30_encoding R114). -/
def decodeFrame (m : Id5Mode) : List Word → Except DecodeError (Command × List Word)
  | c0 :: c1 :: rest =>
    let id := cmdIdField c0
    let tc := transferCountField c0
    let cmd := fun payload => Command.mk id (classify m id) tc (tc.toNat + 1) (pinDirectionsField c0) payload
    match id.toNat with
    | 0 => .ok (cmd [p10Field c1], rest)
    | 1 => .ok (cmd [p10Field c1], rest)
    | 2 =>
      if rest.length < paylen 2 tc.toNat then .error .truncated
      else .ok (cmd ((rest.take (paylen 2 tc.toNat)).map p10Field), rest.drop (paylen 2 tc.toNat))
    | 4 =>
      if rest.length < paylen 4 tc.toNat then .error .truncated
      else .ok (cmd ((rest.take (paylen 4 tc.toNat)).map p10Field), rest.drop (paylen 4 tc.toNat))
    | _ => .ok (cmd [], rest)
  | [_] => .error .truncated
  | [] => .error .truncated

/-- `decode_stream` with a bound on the number of frames; every frame takes at least two words. -/
def decodeStreamWithin (m : Id5Mode) : Nat → List Word → Except DecodeError (List Command)
  | _, [] => .ok []
  | 0, _ :: _ => .error .truncated
  | n + 1, w :: ws =>
    match decodeFrame m (w :: ws) with
    | .error e => .error e
    | .ok (c, rest) =>
      match decodeStreamWithin m n rest with
      | .error e => .error e
      | .ok cs => .ok (c :: cs)

/-- `decode_stream(ws)` (30_encoding R117). -/
def decodeStream (m : Id5Mode) (ws : List Word) : Except DecodeError (List Command) :=
  decodeStreamWithin m ws.length ws

/-- `encode_data(byte)` (30_encoding R118). -/
def encodeData (b : Nat) : Except HarnessError Word :=
  if b ≤ 255 then .ok (d8Word (BitVec.ofNat 8 b)) else .error (.encodingRange (.byte b))

/-- `decode_data(w)` (30_encoding R118). -/
def decodeData (w : Word) : Byte := w.extractLsb' 0 8

/-- `pay(cs, byte) = cs << 8 | byte` (30_encoding R101). -/
def pay (cs : BitVec 2) (b : Byte) : Nat := (cs ++ b).toNat

/-! ## The command notation (30_encoding R122) -/

/-- One line of the notation. -/
inductive Line where
  | bitbang (pd : BitVec 16) (cs : BitVec 2) (io : Byte)
  | cmdLatch (pd : BitVec 16) (cs : BitVec 2) (byte : Byte)
  | addrLatch (pd : BitVec 16) (cs : BitVec 2) (bytes : List Byte)
  | dataOutput (pd : BitVec 16) (count : Nat)
  | dataInput (pd : BitVec 16) (cs : BitVec 2) (bytes : List Byte)
  | signal (pd : BitVec 16)
  | waitRbb (pd : BitVec 16)
  | raw (id : BitVec 4) (tc : BitVec 12) (pd : BitVec 16) (cmd1 : Word) (payload : List Word)
  deriving DecidableEq, Repr

/-- The words of a line; `raw` is not checked (30_encoding R122). -/
def assembleLine (m : Id5Mode) : Line → Except HarnessError (List Word)
  | .bitbang pd cs io => encodeCmd m .bitbang 1 pd.toNat [pay cs io]
  | .cmdLatch pd cs b => encodeCmd m .cmdLatch 1 pd.toNat [pay cs b]
  | .addrLatch pd cs bs => encodeCmd m .addrLatch bs.length pd.toNat (bs.map (pay cs))
  | .dataOutput pd n => encodeCmd m .dataOutput n pd.toNat []
  | .dataInput pd cs bs => encodeCmd m .dataInput bs.length pd.toNat (bs.map (pay cs))
  | .signal pd => encodeCmd m .signal 1 pd.toNat []
  | .waitRbb pd => encodeCmd m .waitRbb 1 pd.toNat []
  | .raw id tc pd c1 payload => .ok (cmd0Word id tc pd :: c1 :: payload)

/-- The words of a list of lines, in order; the first failing line's error (45_scenarios R242). -/
def assemble (m : Id5Mode) : List Line → Except HarnessError (List Word)
  | [] => .ok []
  | l :: ls =>
    match assembleLine m l with
    | .error e => .error e
    | .ok ws =>
      match assemble m ls with
      | .error e => .error e
      | .ok rest => .ok (ws ++ rest)

end Sys2Proof.Machine
end

