-- ==== Sys2Proof/Machine/Verifier.lean ====
section
/-! DEFINITION. The Trace Verifier: checks over the six NANDIO fields of the snapshots, by index (46_harness R300 to
R310). -/

namespace Sys2Proof.Machine

/-- A Trace Record: snapshots in cycle order (46_harness R280). -/
abbrev Trace := List Snapshot

/-- A bit of snapshot `i`; false beyond the end (no rule reads there). -/
def bitAt (tr : Trace) (f : Snapshot → Bool) (i : Nat) : Bool :=
  match tr[i]? with
  | some s => f s
  | none => false

/-- `web` of snapshot `i` -/
def webAt (tr : Trace) (i : Nat) : Bool := bitAt tr (fun s => s.ctrl.web) i
/-- `reb` of snapshot `i` -/
def rebAt (tr : Trace) (i : Nat) : Bool := bitAt tr (fun s => s.ctrl.reb) i
/-- `ale` of snapshot `i` -/
def aleAt (tr : Trace) (i : Nat) : Bool := bitAt tr (fun s => s.ctrl.ale) i
/-- `cle` of snapshot `i` -/
def cleAt (tr : Trace) (i : Nat) : Bool := bitAt tr (fun s => s.ctrl.cle) i

/-- A write edge: `web` 0 then 1 (46_harness R302). -/
def isWriteEdge (tr : Trace) (e : Nat) : Bool :=
  decide (1 ≤ e) && decide (e < tr.length) && !webAt tr (e - 1) && webAt tr e

/-- A read edge: `reb` 0 then 1 (46_harness R302). -/
def isReadEdge (tr : Trace) (r : Nat) : Bool :=
  decide (1 ≤ r) && decide (r < tr.length) && !rebAt tr (r - 1) && rebAt tr r

/-- The least `j ≤ k` such that `p` holds at every index from `j` to `k - 1`. -/
def runStart (p : Nat → Bool) : Nat → Nat
  | 0 => 0
  | k + 1 => if p k then runStart p k else k + 1

/-- `f(e)`, the fall of `web` (46_harness R302). -/
def fallOf (tr : Trace) (e : Nat) : Nat := runStart (fun j => !webAt tr j) e

/-- Do snapshots `i` and `j` show the same `bus`, `ale` and `cle`? -/
def sameData (tr : Trace) (i j : Nat) : Bool :=
  decide (tr[i]?.map (fun s => (s.bus, s.ctrl.ale, s.ctrl.cle)) = tr[j]?.map (fun s => (s.bus, s.ctrl.ale, s.ctrl.cle)))

/-- `d(e)`, the start of the run of constant `bus`, `ale`, `cle` up to `e` (46_harness R302). -/
def dataOf (tr : Trace) (e : Nat) : Nat := runStart (fun j => sameData tr j e) e

/-- `p(e)`, the placement (46_harness R302). -/
def placementOf (tr : Trace) (e : Nat) : Nat := max (fallOf tr e) (dataOf tr e)

/-- Do snapshots `i` and `j` show the same `ctrl` and `bus`? -/
def samePins (tr : Trace) (i j : Nat) : Bool :=
  decide (tr[i]?.map (fun s => (s.ctrl, s.bus)) = tr[j]?.map (fun s => (s.ctrl, s.bus)))

/-- `n(e)`, the next pin change after `e`; `none` is infinity (46_harness R302). -/
def nextChange (tr : Trace) (e : Nat) : Option Nat :=
  (List.range tr.length).find? fun j => decide (e < j) && !samePins tr j e

/-- `a_x(e)` for a latch enable `x` (46_harness R305). -/
def enableStart (x : Nat → Bool) (e : Nat) : Nat := runStart x e

/-- `g(r)`, the fall of `reb` (46_harness R302). -/
def readFallOf (tr : Trace) (r : Nat) : Nat := runStart (fun j => !rebAt tr j) r

/-- A violation of check 2: the cycle reported, the rank of its sub-check (2a, 2b, 2c, 2d), and the reason. -/
structure TimingFinding where
  cycle : Nat
  rank : Nat
  reason : TimingReason
  deriving DecidableEq, Repr

/-- Check 2a at the write edge `e` (46_harness R303). -/
def setupFindings (cfg : Cfg) (tr : Trace) (e : Nat) : List TimingFinding :=
  if e - placementOf tr e < cfg.tSetup then [⟨e, 0, .setup⟩] else []

/-- Check 2b at the write edge `e` (46_harness R304). -/
def holdFindings (cfg : Cfg) (tr : Trace) (e : Nat) : List TimingFinding :=
  match nextChange tr e with
  | some n => if n - e < cfg.tHold then [⟨n, 1, .hold⟩] else []
  | none => []

/-- Check 2c at the write edge `e` for one latch enable (46_harness R305). -/
def orderFindings (tr : Trace) (x : Nat → Bool) (e : Nat) : List TimingFinding :=
  if x e && !decide (enableStart x e < placementOf tr e) then [⟨placementOf tr e, 2, .latchEnableOrder⟩] else []

/-- Check 2d at the read edge `r` (46_harness R306). -/
def settleFindings (cfg : Cfg) (tr : Trace) (r : Nat) : List TimingFinding :=
  if r - readFallOf tr r < cfg.tRsettle then [⟨r, 3, .settle⟩] else []

/-- Every violation of check 2 that the edge at index `i`, if there is one, gives. -/
def findingsAt (cfg : Cfg) (tr : Trace) (i : Nat) : List TimingFinding :=
  (if isWriteEdge tr i then
    setupFindings cfg tr i ++ holdFindings cfg tr i ++ orderFindings tr (aleAt tr) i ++ orderFindings tr (cleAt tr) i
  else []) ++
  (if isReadEdge tr i then settleFindings cfg tr i else [])

/-- Every violation of check 2. -/
def timingFindings (cfg : Cfg) (tr : Trace) : List TimingFinding :=
  (List.range tr.length).flatMap (findingsAt cfg tr)

/-- Is `a` reported before `b` (46_harness R309: ascending cycle, then 2a, 2b, 2c, 2d)? -/
def reportedBefore (a b : TimingFinding) : Bool :=
  decide (a.cycle < b.cycle) || (decide (a.cycle = b.cycle) && decide (a.rank < b.rank))

/-- The violation of check 2 that is reported. -/
def firstFinding : List TimingFinding → Option TimingFinding
  | [] => none
  | f :: fs =>
    match firstFinding fs with
    | none => some f
    | some g => if reportedBefore g f then some g else some f

/-- Check 1, contiguity: the cycle of the first snapshot whose index is not `i`, `i + 1`, ... (46_harness R301). The
first must be `expected`, each later one its predecessor plus 1. A trace with no snapshot has no gap: R301 speaks of `s_0`
and says nothing of an empty trace (DESIGN CHOICE, log entry 16). Where the cycle fields descend, R301 ("the first `i`
that fails") and R309 (ascending order of the cycle reported) name different gaps: the first index is reported (DESIGN
CHOICE, log entry 16). -/
def firstGap : Nat → Trace → Option Nat
  | _, [] => none
  | expected, s :: rest => if s.cycle = expected then firstGap (s.cycle + 1) rest else some s.cycle

/-- Check 3, occupancy (46_harness R307). Within one snapshot `tx` is looked at first (log entry 16). -/
def firstOverflow (cfg : Cfg) : Trace → Option (Nat × QueueName)
  | [] => none
  | s :: rest =>
    if ¬ s.txocc ≤ cfg.txDepth then some (s.cycle, .tx)
    else if ¬ s.rxocc ≤ cfg.rxDepth then some (s.cycle, .rx)
    else firstOverflow cfg rest

/-- The number of read edges. -/
def readEdges (tr : Trace) : Nat := (List.range tr.length).countP (isReadEdge tr)

/-- The number of write edges with `ale = cle = 0`. -/
def dataWriteEdges (tr : Trace) : Nat :=
  (List.range tr.length).countP fun e => isWriteEdge tr e && !aleAt tr e && !cleAt tr e

/-- Check 4, byte counts (46_harness R308). -/
def countsAgree (declOut declIn : Nat) (received : List Word) (tr : Trace) : Bool :=
  decide (readEdges tr = declOut) && decide (dataWriteEdges tr = declIn) && decide (received.length = declOut)

/-- The cycle of the last snapshot (46_harness R308); a free value when there is none (log entry 16). -/
def lastCycle (tr : Trace) : Nat :=
  match tr.getLast? with
  | some s => s.cycle
  | none => Config.emptyTraceCycle

/-- The verifier: checks 1, 2, 3, 4 in order, the first failure reported (46_harness R300, R309). -/
def verify (cfg : Cfg) (declOut declIn : Nat) (received : List Word) (tr : Trace) : Except HarnessError Unit :=
  match firstGap 0 tr with
  | some c => .error (.timingViolation c .gap)
  | none =>
    match firstFinding (timingFindings cfg tr) with
    | some f => .error (.timingViolation f.cycle f.reason)
    | none =>
      match firstOverflow cfg tr with
      | some (c, q) => .error (.queueOverflow c q)
      | none =>
        if countsAgree declOut declIn received tr then .ok ()
        else .error (.timingViolation (lastCycle tr) .byteCount)

end Sys2Proof.Machine
end

