-- ==== Sys2Proof/Machine/Emitter.lean ====
section
/-! DEFINITION. The Artifact Emitter: the contents of the four records of a verified trace (46_harness R320 to R322). The
serialized form is outside the spec (93 U21). -/

namespace Sys2Proof.Machine

/-- One entry of the state record (46_harness R321). -/
structure StateEntry where
  cycle : Nat
  reb : Bool
  web : Bool
  wpb : Bool
  ale : Bool
  cle : Bool
  bus : BitVec 10
  rbb : Bool
  completion : Bool
  deriving DecidableEq, Repr

/-- One entry of the host-to-device queue record (46_harness R321). -/
structure TxEntry where
  cycle : Nat
  txocc : Nat
  popped : List Word
  deriving DecidableEq, Repr

/-- One entry of the device-to-host queue record (46_harness R321). -/
structure RxEntry where
  cycle : Nat
  rxocc : Nat
  pushed : Option Word
  deriving DecidableEq, Repr

/-- The four records of one scenario (46_harness R321). -/
structure Records where
  events : List (Nat × Event)
  states : List StateEntry
  tx : List TxEntry
  rx : List RxEntry
  deriving DecidableEq, Repr

/-- The word an event says was popped. -/
def poppedWord : Event → Option Word
  | .pop w => some w
  | .dispatch _ _ | .placement | .latchPulse _ | .readSample _ | .signalRaised | .rbbReady | .stall _ => none

/-- The word an event says was pushed (the D8 word of the sampled byte, 42_transfer_commands R203). -/
def pushedWord : Event → Option Word
  | .readSample b => some (d8Word b)
  | .pop _ | .dispatch _ _ | .placement | .latchPulse _ | .signalRaised | .rbbReady | .stall _ => none

/-- The entries of one snapshot in the event record. -/
def eventEntries (s : Snapshot) : List (Nat × Event) := s.events.map fun e => (s.cycle, e)

/-- The entry of one snapshot in the state record. -/
def stateEntry (s : Snapshot) : StateEntry where
  cycle := s.cycle
  reb := s.ctrl.reb
  web := s.ctrl.web
  wpb := s.ctrl.wpb
  ale := s.ctrl.ale
  cle := s.ctrl.cle
  bus := s.bus
  rbb := s.rbb
  completion := s.completion

/-- The entry of one snapshot in the host-to-device queue record. -/
def txEntry (s : Snapshot) : TxEntry where
  cycle := s.cycle
  txocc := s.txocc
  popped := s.events.filterMap poppedWord

/-- The entry of one snapshot in the device-to-host queue record. -/
def rxEntry (s : Snapshot) : RxEntry where
  cycle := s.cycle
  rxocc := s.rxocc
  pushed := (s.events.filterMap pushedWord).head?

/-- `emit(T)` (46_harness R321, R322). -/
def emit (tr : Trace) : Records where
  events := tr.flatMap eventEntries
  states := tr.map stateEntry
  tx := tr.map txEntry
  rx := tr.map rxEntry

end Sys2Proof.Machine
end

