-- ==== Sys2Proof/Machine/Scenario.lean ====
section
/-! DEFINITION. The Scenario Builder: the six named scenarios, their expansions, and the termination check
(45_scenarios). -/

namespace Sys2Proof.Machine

/-- The closed set of names (45_scenarios R241). -/
inductive ScenarioName where
  | reset
  | readId
  | read
  | program
  | erase
  | statusRead
  deriving DecidableEq, Repr

/-- The spelling of a name (45_scenarios R241). -/
def ScenarioName.text : ScenarioName → String
  | .reset => "reset"
  | .readId => "read_id"
  | .read => "read"
  | .program => "program"
  | .erase => "erase"
  | .statusRead => "status_read"

/-- The order of "run all" (45_scenarios R241, 60_exceptions R353). -/
def allScenarios : List ScenarioName := [.reset, .readId, .read, .program, .erase, .statusRead]

/-- Name selection: exact, case-sensitive comparison (45_scenarios R241). -/
def selectScenario (name : String) : Except HarnessError ScenarioName :=
  match allScenarios.find? (fun n => n.text == name) with
  | some n => .ok n
  | none => .error (.unknownScenario name)

/-- The builder's parameters (45_scenarios R243). -/
structure Params where
  cs : BitVec 2
  pdWrite : BitVec 16
  pdRead : BitVec 16
  cmdReset : Byte
  cmdReadId : Byte
  idAddr : Byte
  idLen : Nat
  cmdStatus : Byte
  cmdRead1 : Byte
  cmdRead2 : Byte
  cmdProg1 : Byte
  cmdProg2 : Byte
  cmdErase1 : Byte
  cmdErase2 : Byte
  colCycles : Nat
  rowCycles : Nat
  col : Nat
  row : Nat
  readLen : Nat
  progData : List Byte
  deriving DecidableEq, Repr

/-- The defaults of 45_scenarios R243. The command bytes but `0xFF` and `0x90`, and the address cycles, are general
knowledge (93 G2, G3; log entry 19). -/
def Params.default : Params where
  cs := 0b10
  pdWrite := 0x7FFF
  pdRead := 0x7F00
  cmdReset := 0xFF
  cmdReadId := 0x90
  idAddr := 0x00
  idLen := 5
  cmdStatus := 0x70
  cmdRead1 := 0x00
  cmdRead2 := 0x30
  cmdProg1 := 0x80
  cmdProg2 := 0x10
  cmdErase1 := 0x60
  cmdErase2 := 0xD0
  colCycles := 2
  rowCycles := 3
  col := 0
  row := 0
  readLen := 4
  progData := [0xDE, 0xAD, 0xBE, 0xEF]

/-- `addr_bytes(v, n)`: `n` bytes, least significant first (45_scenarios R245). -/
def addrBytes (v n : Nat) : List Byte := (List.range n).map fun k => BitVec.ofNat 8 (v >>> (8 * k))

/-- The expansion of a scenario (45_scenarios R246 to R251). -/
def expansion (p : Params) : ScenarioName → List Line
  | .reset =>
    [.cmdLatch p.pdWrite p.cs p.cmdReset,
     .waitRbb p.pdWrite]
  | .readId =>
    [.cmdLatch p.pdWrite p.cs p.cmdReadId,
     .addrLatch p.pdWrite p.cs [p.idAddr],
     .dataOutput p.pdRead p.idLen,
     .waitRbb p.pdWrite]
  | .read =>
    [.cmdLatch p.pdWrite p.cs p.cmdRead1,
     .addrLatch p.pdWrite p.cs (addrBytes p.col p.colCycles ++ addrBytes p.row p.rowCycles),
     .cmdLatch p.pdWrite p.cs p.cmdRead2,
     .waitRbb p.pdWrite,
     .dataOutput p.pdRead p.readLen,
     .waitRbb p.pdWrite]
  | .program =>
    [.cmdLatch p.pdWrite p.cs p.cmdProg1,
     .addrLatch p.pdWrite p.cs (addrBytes p.col p.colCycles ++ addrBytes p.row p.rowCycles),
     .dataInput p.pdWrite p.cs p.progData,
     .cmdLatch p.pdWrite p.cs p.cmdProg2,
     .waitRbb p.pdWrite,
     .cmdLatch p.pdWrite p.cs p.cmdStatus,
     .dataOutput p.pdRead 1,
     .waitRbb p.pdWrite]
  | .erase =>
    [.cmdLatch p.pdWrite p.cs p.cmdErase1,
     .addrLatch p.pdWrite p.cs (addrBytes p.row p.rowCycles),
     .cmdLatch p.pdWrite p.cs p.cmdErase2,
     .waitRbb p.pdWrite,
     .cmdLatch p.pdWrite p.cs p.cmdStatus,
     .dataOutput p.pdRead 1,
     .waitRbb p.pdWrite]
  | .statusRead =>
    [.cmdLatch p.pdWrite p.cs p.cmdStatus,
     .dataOutput p.pdRead 1,
     .waitRbb p.pdWrite]

/-- `validate(ws)` (45_scenarios R261): the decoded commands, or why the stream is malformed. -/
def validate (m : Id5Mode) (ws : List Word) : Except HarnessError (List Command) :=
  match decodeStream m ws with
  | .error _ => .error (.malformedScenario .truncated)
  | .ok cs =>
    match cs.getLast? with
    | none => .error (.malformedScenario .empty)
    | some c =>
      if c.kind = .waitRbb ∨ c.kind = .signal then .ok cs
      else .error (.malformedScenario (.notTerminated c.kind))

/-- A range of 45_scenarios R243, as a check: the parameter and its value when the value is outside. -/
def outside (which : ParamRange) (lo v : Nat) : Option (ParamRange × Nat) :=
  if lo ≤ v ∧ v ≤ 4096 then none else some (which, v)

/-- The parameters within the ranges of 45_scenarios R243. The other parameters have their range in their type. -/
def Params.inRange (p : Params) : Bool :=
  [outside .idLen 1 p.idLen, outside .colCycles 0 p.colCycles, outside .rowCycles 1 p.rowCycles,
    outside .addressCycles 1 (p.colCycles + p.rowCycles), outside .readLen 1 p.readLen,
    outside .progData 1 p.progData.length].all Option.isNone

/-- The range checks of the parameters a scenario uses, in the order of the table of 45_scenarios R243 with the sum of the
two cycle counts after them. The expansions of R246 to R251 say which parameters those are. -/
def Params.rangeChecks (p : Params) : ScenarioName → List (Option (ParamRange × Nat))
  | .reset => []
  | .readId => [outside .idLen 1 p.idLen]
  | .read =>
    [outside .colCycles 0 p.colCycles, outside .rowCycles 1 p.rowCycles,
      outside .addressCycles 1 (p.colCycles + p.rowCycles), outside .readLen 1 p.readLen]
  | .program =>
    [outside .colCycles 0 p.colCycles, outside .rowCycles 1 p.rowCycles,
      outside .addressCycles 1 (p.colCycles + p.rowCycles), outside .progData 1 p.progData.length]
  | .erase => [outside .rowCycles 1 p.rowCycles]
  | .statusRead => []

/-- The first parameter of the scenario that is outside its range. -/
def Params.firstOutside (p : Params) (n : ScenarioName) : Option (ParamRange × Nat) := (p.rangeChecks n).findSome? id

/-- `build(name, params)` before validation: the scenario's word list (45_scenarios R242). An encoding error of one of its
lines comes first (95 V65); a parameter of the scenario outside its range that gives none is refused. A parameter the
scenario does not use stops nothing: an error stays with its scenario (60_exceptions R353; log entry 23). -/
def build (m : Id5Mode) (p : Params) (n : ScenarioName) : Except RunStop (List Word) :=
  match assemble m (expansion p n) with
  | .error e => .error (.error e)
  | .ok ws =>
    match p.firstOutside n with
    | some (which, v) => .error (.paramOutOfRange which v)
    | none => .ok ws

/-- The sum of `repeats` over the commands of one kind (45_scenarios R263). -/
def declared (k : Kind) (cs : List Command) : Nat :=
  ((cs.filter fun c => decide (c.kind = k)).map Command.repeats).sum

/-- `declared_out` (45_scenarios R263). -/
def declaredOut (cs : List Command) : Nat := declared .dataOutput cs

/-- `declared_in` (45_scenarios R263). -/
def declaredIn (cs : List Command) : Nat := declared .dataInput cs

end Sys2Proof.Machine
end

