-- ==== Sys2Proof/Machine/Harness.lean ====
section
/-! DEFINITION. The scenario pipeline and the batch (60_exceptions R350, R353), and the two duties towards the opaque
microprogram (46_harness R331, R332). -/

namespace Sys2Proof.Machine

/-- What a passed scenario gives: the records, and the words received. -/
structure ScenarioResult where
  records : Records
  received : List Word
  deriving DecidableEq, Repr

/-- Stages 3 to 6 of `run_scenario` on a built word list (60_exceptions R350). -/
def runBuilt (cfg : Cfg) (rbbIn : Nat → Bool) (chipIo : Nat → Byte) (ws : List Word) : Except RunStop ScenarioResult :=
  match validate cfg.id5Mode ws with
  | .error e => .error (.error e)
  | .ok cs =>
    match runWords cfg ws rbbIn chipIo with
    | .error r => .error r
    | .ok t =>
      match verify cfg (declaredOut cs) (declaredIn cs) t.received t.trace with
      | .error e => .error (.error e)
      | .ok _ => .ok ⟨emit t.trace, t.received⟩

/-- Stages 2 to 6 of `run_scenario` for a name of the set (60_exceptions R350). -/
def runNamed (cfg : Cfg) (p : Params) (rbbIn : Nat → Bool) (chipIo : Nat → Byte) (n : ScenarioName) :
    Except RunStop ScenarioResult :=
  match build cfg.id5Mode p n with
  | .error e => .error e
  | .ok ws => runBuilt cfg rbbIn chipIo ws

/-- `run_scenario(name, ...)`: the first error in the order of the stages (60_exceptions R350). R350 lists no stage for the
validity of `CFG`; it is tested at the start of stage 4, the first that runs the machine, so an unknown name, an encoding
error or a malformed scenario is reported before it (DESIGN CHOICE, log entry 24). -/
def runScenario (cfg : Cfg) (p : Params) (rbbIn : Nat → Bool) (chipIo : Nat → Byte) (name : String) :
    Except RunStop ScenarioResult :=
  match selectScenario name with
  | .error e => .error (.error e)
  | .ok n => runNamed cfg p rbbIn chipIo n

/-- The verdict of one scenario in the summary (46_harness R321). -/
inductive Verdict where
  | passed
  | failed (why : RunStop)
  deriving DecidableEq, Repr

/-- The verdict of a result. -/
def verdictOf (r : Except RunStop ScenarioResult) : Verdict :=
  match r with
  | .ok _ => .passed
  | .error e => .failed e

/-- A batch: every scenario from reset, failures isolated, with the summary and the aggregate verdict
(60_exceptions R353, 46_harness R335, R336). -/
structure BatchResult where
  results : List (ScenarioName × Except RunStop ScenarioResult)
  summary : List (String × Verdict)
  pass : Bool

/-- `run_all` (60_exceptions R353). Every scenario has its own environment functions. -/
def runAll (cfg : Cfg) (p : Params) (rbbIn : ScenarioName → Nat → Bool) (chipIo : ScenarioName → Nat → Byte) :
    BatchResult :=
  let results := allScenarios.map fun n => (n, runNamed cfg p (rbbIn n) (chipIo n) n)
  let summary := results.map fun r => (r.1.text, verdictOf r.2)
  { results := results, summary := summary, pass := summary.all fun v => decide (v.2 = .passed) }

/-- Accept a microprogram of opaque opcode words if it fits in the instruction memory; `none` is the refusal, for which
the spec names no error (46_harness R331, 93 U17). A word of the program is a 32-bit word, as it is stored
(20_memory R61; log entry 22). -/
def acceptProgram (cfg : Cfg) (program : List Word) : Option (List Word) :=
  if program.length ≤ cfg.imemSlots then some program else none

/-- The program as a binary file: one word per slot, each stored as 4 bytes, least significant byte first
(46_harness R332, 20_memory R61). -/
def programImage (program : List Word) : List Byte := bytesOfWords program

/-- An array literal of unsigned words, one per instruction slot (46_harness R332). -/
structure ArrayLiteral where
  elements : List Word
  deriving DecidableEq, Repr

/-- The program as a source-embeddable array literal (46_harness R332; log entry 22). -/
def programLiteral (program : List Word) : ArrayLiteral := ⟨program⟩

/-- The bytes an array literal stands for: its words in order, 4 bytes each, least significant first (20_memory R61). -/
def ArrayLiteral.bytes (a : ArrayLiteral) : List Byte := bytesOfWords a.elements

/-- The spelling of an array literal in a source language. The spec names no language, so all of it is an argument
(log entry 22). -/
structure LiteralStyle where
  opening : String
  separator : String
  closing : String
  /-- what stands before the digits of an element -/
  lead : String
  radix : Nat
  deriving DecidableEq, Repr

/-- The text of an array literal to be pasted into source code (46_harness R332). -/
def ArrayLiteral.render (style : LiteralStyle) (a : ArrayLiteral) : String :=
  style.opening ++
    String.intercalate style.separator
      (a.elements.map fun v => style.lead ++ String.ofList (Nat.toDigits style.radix v.toNat)) ++
    style.closing

end Sys2Proof.Machine
end

