-- ==== Sys2Proof/Safety.lean ====
section
/-! DEFINITION. The terms the statements use: frames, legal control states, queue bounds, the pins' relation to the phase,
the streams recorded in a trace, and a driver between two commands. -/

namespace Sys2Proof.Machine

/-! ## Frames -/

/-- The fields of State. -/
inductive Reg where
  | cfg | phase | kind | tmr | cmd0 | cmd1 | y | cnt | pindir | out | irq | txq | rxq
  | cycle | pending | received | trace | events | host | env | finished
  deriving DecidableEq, Repr

/-- The field `r` is the same in `s` and `t`. -/
def Reg.same (r : Reg) (s t : State) : Prop :=
  match r with
  | .cfg => t.cfg = s.cfg
  | .phase => t.phase = s.phase
  | .kind => t.kind = s.kind
  | .tmr => t.tmr = s.tmr
  | .cmd0 => t.cmd0 = s.cmd0
  | .cmd1 => t.cmd1 = s.cmd1
  | .y => t.y = s.y
  | .cnt => t.cnt = s.cnt
  | .pindir => t.pindir = s.pindir
  | .out => t.out = s.out
  | .irq => t.irq = s.irq
  | .txq => t.txq = s.txq
  | .rxq => t.rxq = s.rxq
  | .cycle => t.cycle = s.cycle
  | .pending => t.pending = s.pending
  | .received => t.received = s.received
  | .trace => t.trace = s.trace
  | .events => t.events = s.events
  | .host => t.host = s.host
  | .env => t.env = s.env
  | .finished => t.finished = s.finished

/-- Every field but those of `changed` is the same in `s` and `t`. -/
def Frame (changed : List Reg) (s t : State) : Prop := ∀ r : Reg, r ∉ changed → r.same s t

/-- Every bit of `OUT` but those of `bits` is the same in `s` and `t`. -/
def OutKeptBut (bits : List Nat) (s t : State) : Prop := ∀ k : Nat, k ∉ bits → t.out.getLsbD k = s.out.getLsbD k

/-- Bits 9:0 of `OUT` are bits 9:0 of the word `p`. -/
def BusLatched (p : Word) (t : State) : Prop := ∀ k : Nat, k < 10 → t.out.getLsbD k = p.getLsbD k

/-- The bus bits of `OUT`. -/
def busBits : List Nat := [0, 1, 2, 3, 4, 5, 6, 7, 8, 9]

/-! ## What one cycle of a pulse leaves -/

/-- The payload `p` placed on the bus with `web` falling (41_pin_commands R176): every effect of the placing part of
`W_PLACE`, and nothing else but the events and `TXQ`. -/
def Placed (p : Word) (s t : State) : Prop :=
  t.out.getLsbD 13 = false ∧ BusLatched p t ∧ OutKeptBut (13 :: busBits) s t ∧
  t.tmr = s.cfg.tSetup - 1 ∧ t.phase = (if s.cfg.tSetup = 1 then .wRise else .wLow) ∧
  Frame [.out, .tmr, .phase, .txq, .events] s t

/-- `loop_back(first, exit)` (40_dispatch R150): on to `exit` with `CNT` as it is when `CNT` is 0, else back to `first`
with `CNT` one lower. -/
def LoopedBack (first exit : Phase) (s t : State) : Prop :=
  (s.cnt = 0 → t.phase = exit ∧ t.cnt = s.cnt) ∧ (s.cnt ≠ 0 → t.phase = first ∧ t.cnt.toNat + 1 = s.cnt.toNat)

/-- The kinds that make write pulses. -/
def isWriteKind (k : Kind) : Bool :=
  match k with
  | .cmdLatch => true
  | .addrLatch => true
  | .dataInput => true
  | .bitbang | .dataOutput | .signal | .waitRbb => false

/-- The successor of a finished write pulse, `after_w()` (41_pin_commands R180). -/
def PulseSuccessor (k : Kind) (s t : State) : Prop :=
  match k with
  | .cmdLatch => t.phase = .clExit ∧ t.cnt = s.cnt
  | .addrLatch => LoopedBack .wPlace .alExit s t
  | .dataInput => LoopedBack .wPlace .setupA s t
  | .bitbang | .dataOutput | .signal | .waitRbb => False

/-! ## Outcomes -/

/-- An outcome with its next state changed by `f`; a stop stays that stop. -/
def mapNext (f : State → State) (o : Host.Outcome State Fault Refusal) : Host.Outcome State Fault Refusal :=
  match o with
  | .next t => .next (f t)
  | .fault r => .fault r
  | .refused r => .refused r

/-- A state in which `step` works a cycle: a valid configuration, the run not over, below the driver's ceiling. -/
def Runnable (s : State) : Prop := s.cfg.valid = true ∧ s.finished = false ∧ atCeiling s = false

/-! ## Legal control states (40_dispatch R151, 93 U18) -/

/-- A phase of SETUP. -/
def isSetup (p : Phase) : Bool :=
  match p with
  | .setupA => true
  | .setupB => true
  | .bbEmit | .wPlace | .wLow | .wRise | .wHigh | .clExit | .alExit | .rFall | .rLow | .rSample | .rHigh | .signal
  | .waitRbb => false

/-- Does the step of this state need a word from `TXQ`: SETUP, and `W_PLACE` of `addr_latch` and `data_input`
(20_memory R80)? -/
def popsTxq (s : State) : Bool :=
  isSetup s.phase ||
    (decide (s.phase = .wPlace) && (decide (s.kind = .addrLatch) || decide (s.kind = .dataInput)))

/-- The phases of a command of kind `k` (10_state R24, column "belongs to"); SETUP belongs to every kind. -/
def phaseBelongs (k : Kind) (p : Phase) : Bool :=
  match p with
  | .setupA => true
  | .setupB => true
  | .bbEmit => decide (k = .bitbang)
  | .wPlace | .wLow | .wRise | .wHigh => decide (k = .cmdLatch) || decide (k = .addrLatch) || decide (k = .dataInput)
  | .clExit => decide (k = .cmdLatch)
  | .alExit => decide (k = .addrLatch)
  | .rFall | .rLow | .rSample | .rHigh => decide (k = .dataOutput)
  | .signal => decide (k = .signal)
  | .waitRbb => decide (k = .waitRbb)

/-- The first phase after the dispatch of a command of kind `k` (40_dispatch R145). -/
def firstPhase (k : Kind) : Phase :=
  match k with
  | .bitbang => .bbEmit
  | .cmdLatch => .wPlace
  | .addrLatch => .wPlace
  | .dataOutput => .rFall
  | .dataInput => .wPlace
  | .signal => .signal
  | .waitRbb => .waitRbb

/-- A waiting phase of a timed phase pair (40_dispatch R151). -/
def isWaiting (p : Phase) : Bool :=
  match p with
  | .wLow => true
  | .wHigh => true
  | .rLow => true
  | .rHigh => true
  | .setupA | .setupB | .bbEmit | .wPlace | .wRise | .clExit | .alExit | .rFall | .rSample | .signal | .waitRbb => false

/-- A legal control state: a valid configuration, a phase with a kind it belongs to, and a positive `TMR` in a waiting
phase, so that it is decremented only when positive (40_dispatch R151). -/
def LegalControl (s : State) : Prop :=
  s.cfg.valid = true ∧ phaseBelongs s.kind s.phase = true ∧ (isWaiting s.phase = true → 1 ≤ s.tmr)

/-- Both occupancies within the configured depths (10_state R37). -/
def QueuesBounded (s : State) : Prop := s.txq.length ≤ s.cfg.txDepth ∧ s.rxq.length ≤ s.cfg.rxDepth

/-! ## What a running command keeps -/

/-- `web` is low exactly in the phases between placement and edge, `reb` exactly between fall and sample, `cle` and `ale`
are high exactly during `cmd_latch` and `addr_latch` (40_dispatch R152, R155). -/
def PinsFollowPhase (s : State) : Prop :=
  s.out.getLsbD 13 = !(decide (s.phase = .wLow) || decide (s.phase = .wRise)) ∧
  s.out.getLsbD 14 = !(decide (s.phase = .rLow) || decide (s.phase = .rSample)) ∧
  s.out.getLsbD 10 = (decide (s.kind = .cmdLatch) && !isSetup s.phase) ∧
  s.out.getLsbD 11 = (decide (s.kind = .addrLatch) && !isSetup s.phase)

/-- While a command runs, the registers loaded at its dispatch say which command it is: the one its two words decode to
(40_dispatch R145; 20_memory R78). -/
def CommandHeld (s : State) : Prop :=
  isSetup s.phase = false →
    s.inFlight = decodeHead s.cfg.id5Mode s.cmd0 s.cmd1 ∧
    s.kind = classify s.cfg.id5Mode (cmdIdField s.cmd0) ∧
    s.y = cmdIdField s.cmd0 ∧
    s.pindir = pinDirectionsField s.cmd0 ∧
    s.out.getLsbD 12 = wpbLevel s.cfg.wpbTable s.kind

/-- A cycle of SETUP that pops cmd_1 and so dispatches (40_dispatch R144). -/
def DispatchCycle (s : State) : Prop :=
  (s.phase = .setupA ∧ 2 ≤ s.txq.length) ∨ (s.phase = .setupB ∧ 1 ≤ s.txq.length)

/-! ## Streams -/

/-- The events of a stretch of trace, in order. -/
def traceEvents (tr : Trace) : List Event := tr.flatMap Snapshot.events

/-- The words popped from `TXQ` in a stretch of trace. -/
def poppedWords (tr : Trace) : List Word := (traceEvents tr).filterMap poppedWord

/-- The words pushed to `RXQ` in a stretch of trace. -/
def pushedWords (tr : Trace) : List Word := (traceEvents tr).filterMap pushedWord

/-- Is this event the latch pulse of a command of kind `k`? -/
def isPulseOf (k : Kind) (e : Event) : Bool := decide (e = .latchPulse k)

/-- The bus vectors of the snapshots that hold a latch pulse of a command of kind `k`, in order. -/
def latchedBus (k : Kind) (tr : Trace) : List (BitVec 10) :=
  (tr.filter fun s => s.events.any (isPulseOf k)).map Snapshot.bus

/-- The snapshots that `t` has beyond those of `s`. -/
def newTrace (s t : State) : Trace := t.trace.drop s.trace.length

/-! ## Runs -/

/-- A driver between two commands: SETUP_A with nothing in `TXQ`, a valid configuration in which both words of a
frame's head fit, and the run not over. -/
def DriverReady (s : State) : Prop :=
  s.cfg.valid = true ∧ 2 ≤ s.cfg.txDepth ∧ s.host = .driver ∧ s.finished = false ∧ s.phase = .setupA ∧ s.txq = []

/-- `EXT(c)` for a cycle `c` from `CYCLE` on, as `s` knows it (00_scope R13). -/
def extAt (s : State) (c : Nat) : Pins :=
  match s.env[c - s.cycle]? with
  | some e => e
  | none => Config.ext c

/-- After `n` steps the machine is in a state of which `P` holds. -/
def AfterSteps (n : Nat) (s : State) (P : State → Prop) : Prop :=
  ∃ t : State, Host.Core.run core n s = .next t ∧ P t

/-- For each number of steps strictly between 0 and `n` the machine is not in SETUP_A: the command still runs. -/
def BusyUntil (n : Nat) (s : State) : Prop :=
  ∀ k : Nat, 0 < k → k < n → AfterSteps k s fun u => u.phase ≠ .setupA

/-- The cycles of a command that takes no stall and no wait, from its SETUP cycle to its last (40_dispatch R153). -/
def commandCycles (c : Cfg) (k : Kind) (n : Nat) : Nat :=
  match k with
  | .bitbang => 1 + 1
  | .cmdLatch => 1 + c.tSetup + c.tHold + 1
  | .addrLatch => 1 + n * (c.tSetup + c.tHold) + 1
  | .dataOutput => 1 + n * (c.tRsettle + c.tHold)
  | .dataInput => 1 + n * (c.tSetup + c.tHold)
  | .signal => 1 + 1
  | .waitRbb => 1 + n

end Sys2Proof.Machine
end

