-- ==== Sys2Proof/Certificates/Slice0/Obligations.lean ====
section
/-! DEFINITION. The statements for the provers. Every docstring names the rules of spec/ the statement rests on. -/

open Sys2Proof Sys2Proof.Machine

/-! ## Words -/

/-- A few words of each row of the opcode table decode to the command they stand for (95 V24, 30_encoding R102). -/
def Obligations.SampleWordsDecode : Prop :=
  decodeWords .signal [0x00007FFF, 0x000001A5] = .ok (.bitbang 0 0x7FFF 0x1A5, []) ∧
  decodeWords .signal [0x1ABC1234, 0x000002FF] = .ok (.cmdLatch 0xABC 0x1234 0x2FF, []) ∧
  decodeWords .signal [0x20027FFF, 0] = .ok (.addrLatch 2 0x7FFF 0, []) ∧
  decodeWords .signal [0x3FFF7F00, 0] = .ok (.dataOutput 0xFFF 0x7F00 0, []) ∧
  decodeWords .signal [0x40017FFF, 0] = .ok (.dataInput 1 0x7FFF 0, []) ∧
  decodeWords .signal [0x5FFF0000, 0] = .ok (.signal 0xFFF 0 0, []) ∧
  decodeWords .waitRbb [0x5FFF0000, 0] = .ok (.waitRbbFive 0xFFF 0 0, []) ∧
  decodeWords .signal [0x7FFFFFFF, 0] = .ok (.waitRbbSixSeven 1 0xFFF 0xFFFF 0, []) ∧
  decodeWords .signal [0xF07B7FFF, 0xDEADBEEF] = .ok (.waitRbbHigh 7 0x07B 0x7FFF 0xDEADBEEF, [])

/-- The classification of 30_encoding R103: total, `wait_rbb` from `WAIT_RBB_ID` on, the table's kind below it; and the
command a word pair decodes to has the kind of its id. -/
def Obligations.OpcodeMapClassifies : Prop :=
  waitRbbId .signal = 6 ∧ waitRbbId .waitRbb = 5 ∧
  (∀ (m : Id5Mode) (id : BitVec 4), waitRbbId m ≤ id.toNat → classify m id = .waitRbb) ∧
  (∀ (m : Id5Mode) (id : BitVec 4), id.toNat < waitRbbId m →
    [Kind.bitbang, .cmdLatch, .addrLatch, .dataOutput, .dataInput, .signal][id.toNat]? = some (classify m id)) ∧
  (∀ (m : Id5Mode) (c0 c1 : Word), (decodeHead m c0 c1).kind = classify m (cmdIdField c0))

/-- 30_encoding R104: every pair of words is a well-formed command, every id above `WAIT_RBB_ID` is an alias of
`wait_rbb`, and no cycle of the command faults or refuses. -/
def Obligations.NoIllegalCommandWord : Prop :=
  ∀ (m : Id5Mode) (c0 c1 : Word) (rest : List Word),
    ∃ i : Instr, decodeWords m (c0 :: c1 :: rest) = .ok (i, rest) ∧ i.wellFormed m = true ∧
      (waitRbbId m < (cmdIdField c0).toNat → i.kind = .waitRbb) ∧
      ∀ s : State, phaseBelongs i.kind s.phase = true → ∃ t : State, exec i s = .next t

/-- Decoding the encoding of a well-formed command gives it back, whatever follows it. -/
def Obligations.DecodeEncodeRoundTrip : Prop :=
  ∀ (m : Id5Mode) (i : Instr) (rest : List Word), i.wellFormed m = true →
    decodeWords m (encode i ++ rest) = .ok (i, rest) ∧
    ∀ c0 c1 : Word, encode (decodeHead m c0 c1) = [c0, c1]

/-- 30_encoding R119: for every input that passes the checks of R112, `decode(encode(...))` gives the fields back and an
empty rest, for all sixteen ids and both variants. -/
def Obligations.CodecRoundTrip : Prop :=
  ∀ (m : Id5Mode) (id tc pd : Nat) (payload : List Nat),
    encodeCheck id tc pd payload = none →
    ∃ (ws : List Word) (c : Command), encodeFrame id tc pd payload = .ok ws ∧ decodeFrame m ws = .ok (c, []) ∧
      c.cmdId.toNat = id ∧ c.kind = classify m c.cmdId ∧ c.transferCount.toNat = tc ∧ c.repeats = tc + 1 ∧
      c.pinDirections.toNat = pd ∧ c.payload.map BitVec.toNat = payload

/-- When `encode` and `encode_cmd` succeed, and the wire value they write (30_encoding R112, R113, R120). -/
def Obligations.EncodeSucceedsExactlyInRange : Prop :=
  (∀ (id tc pd : Nat) (payload : List Nat),
    (∃ ws : List Word, encodeFrame id tc pd payload = .ok ws) ↔
      (id ≤ 15 ∧ tc ≤ 4095 ∧ pd ≤ 0xFFFF ∧ payload.length = paylen id tc ∧ ∀ v ∈ payload, v ≤ 1023)) ∧
  (∀ (m : Id5Mode) (count pd : Nat),
    (∃ ws : List Word, encodeCmd m .dataOutput count pd [] = .ok ws) ↔ (1 ≤ count ∧ count ≤ 4096 ∧ pd ≤ 0xFFFF)) ∧
  (∀ (m : Id5Mode) (count pd : Nat) (ws : List Word), encodeCmd m .dataOutput count pd [] = .ok ws →
    ∃ c0 : Word, ws = [c0, 0] ∧ (transferCountField c0).toNat + 1 = count)

/-- A decoded frame has the length its first word gives, the same in both variants (30_encoding R109, R116). -/
def Obligations.DecodeConsumesFrameLength : Prop :=
  (∀ (m : Id5Mode) (c0 c1 : Word) (ws rest : List Word) (c : Command),
    decodeFrame m (c0 :: c1 :: ws) = .ok (c, rest) →
      (c0 :: c1 :: ws).drop (frameLength m c0) = rest ∧ (c0 :: c1 :: ws).length = frameLength m c0 + rest.length) ∧
  (∀ (m : Id5Mode) (c0 : Word) (ws : List Word), frameLength m c0 ≤ ws.length → ws.head? = some c0 →
    ∃ (c : Command) (rest : List Word), decodeFrame m ws = .ok (c, rest)) ∧
  (∀ c0 : Word, frameLength .signal c0 = frameLength .waitRbb c0)

/-! ## Reset -/

/-- 10_state R50: the reset value of every state element, for every configuration, and the defaults of the two
configuration fields it names. -/
def Obligations.ResetStateValues : Prop :=
  (∀ (cfg : Cfg) (ws : List Word), ∃ s : State, State.resetWith cfg ws = s ∧
    s.phase = .setupA ∧ s.kind = .waitRbb ∧ s.tmr = 0 ∧ s.cmd0 = 0 ∧ s.cmd1 = 0 ∧ s.y = 0 ∧ s.cnt = 0 ∧
    s.pindir = cfg.initPindir ∧ s.out = cfg.initOut ∧ s.irq = false ∧ s.txq = [] ∧ s.rxq = [] ∧ s.cycle = 0 ∧
    s.pending = ws ∧ s.received = [] ∧ s.trace = [] ∧ s.cfg = cfg) ∧
  Cfg.default.initOut = 0x7300#16 ∧ Cfg.default.initPindir = 0x0000#16 ∧
  State.reset = State.resetWith Cfg.default []

/-- The invariants below hold after reset under every valid configuration; that of the pins under every `INIT_OUT` with
the four strobes idle, the default among them (10_state R50, R51). -/
def Obligations.ResetSatisfiesInvariants : Prop :=
  (∀ (cfg : Cfg) (ws : List Word), cfg.valid = true →
    LegalControl (State.resetWith cfg ws) ∧ QueuesBounded (State.resetWith cfg ws) ∧
    CommandHeld (State.resetWith cfg ws) ∧
    (State.resetWith cfg ws).received ++ (State.resetWith cfg ws).rxq = pushedWords (State.resetWith cfg ws).trace ∧
    (cfg.initOut.getLsbD 13 = true → cfg.initOut.getLsbD 14 = true → cfg.initOut.getLsbD 10 = false →
      cfg.initOut.getLsbD 11 = false → PinsFollowPhase (State.resetWith cfg ws))) ∧
  LegalControl State.reset ∧ PinsFollowPhase State.reset

/-! ## The step -/

/-- A step runs the command that the words at the fetch decode to, with the host's turn before it and the snapshot after
it. In SETUP the words are popped first; in a running phase they are the two words held. -/
def Obligations.StepRunsDecodedInstruction : Prop :=
  (∀ (s u : State) (c0 c1 : Word) (rest : List Word) (i : Instr), Runnable s → u = beginCycle (hostTurn s) →
    u.phase = .setupA → u.txq = c0 :: c1 :: rest → decodeWords u.cfg.id5Mode u.txq = .ok (i, rest) →
    step s = mapNext endCycle
      (exec i { u with cmd0 := c0, txq := rest, phase := .setupB, events := [.pop c0, .pop c1] })) ∧
  (∀ (s u : State) (c1 : Word) (rest : List Word) (i : Instr), Runnable s → u = beginCycle (hostTurn s) →
    u.phase = .setupB → u.txq = c1 :: rest → decodeWords u.cfg.id5Mode (u.cmd0 :: u.txq) = .ok (i, rest) →
    step s = mapNext endCycle (exec i { u with txq := rest, events := [.pop c1] })) ∧
  (∀ (s u : State) (i : Instr), Runnable s → u = beginCycle (hostTurn s) →
    isSetup u.phase = false → CommandHeld u → decodeWords u.cfg.id5Mode [u.cmd0, u.cmd1] = .ok (i, []) →
    step s = mapNext endCycle (exec i u))

/-- The SETUP step by what `TXQ` holds (40_dispatch R144): it stalls with nothing changed on an empty queue, keeps the
one word it found, and completes with two words, or with one in SETUP_B, as the dispatch of the decoded command. -/
def Obligations.SetupPopsAndDispatches : Prop :=
  (∀ s : State, isSetup s.phase = true → s.txq = [] →
    ∃ t : State, machineCycle s = .next t ∧ t.events = s.events ++ [.stall .txEmpty] ∧ Frame [.events] s t) ∧
  (∀ (s : State) (w : Word), s.phase = .setupA → s.txq = [w] →
    ∃ t : State, machineCycle s = .next t ∧ t.cmd0 = w ∧ t.txq = [] ∧ t.phase = .setupB ∧
      t.events = s.events ++ [.pop w, .stall .txEmpty] ∧ Frame [.cmd0, .txq, .phase, .events] s t) ∧
  (∀ (s : State) (c0 c1 : Word) (rest : List Word),
    (s.phase = .setupA ∧ s.txq = c0 :: c1 :: rest) ∨ (s.phase = .setupB ∧ s.cmd0 = c0 ∧ s.txq = c1 :: rest) →
    ∃ t : State, machineCycle s = .next t ∧ t.cmd0 = c0 ∧ t.cmd1 = c1 ∧ t.txq = rest ∧
      t.pindir = pinDirectionsField c0 ∧ t.cnt = transferCountField c0 ∧ t.y = cmdIdField c0 ∧
      t.kind = classify s.cfg.id5Mode (cmdIdField c0) ∧ t.phase = firstPhase t.kind ∧
      t.out.getLsbD 12 = wpbLevel s.cfg.wpbTable t.kind ∧
      t.events = s.events ++ (if s.phase = .setupA then [.pop c0] else []) ++
        [.pop c1, .dispatch t.kind (cmdIdField c0)] ∧
      Frame [.cmd0, .cmd1, .txq, .pindir, .cnt, .y, .kind, .phase, .out, .events] s t)

/-- 20_memory R80: a step that needs a word from an empty `TXQ` records the stall in its snapshot and changes nothing
else; the phase stays, so it is tried again. SETUP_A with one word keeps that word and stalls on the second pop. No other
step stalls this way. (`hostTurn s` is the state in which the step finds the machine.) -/
def Obligations.TxEmptyStallChangesNothing : Prop :=
  (∀ s u : State, Runnable s → u = hostTurn s → popsTxq u = true → u.txq = [] →
    ∃ (t : State) (sn : Snapshot), step s = .next t ∧ t.trace = s.trace ++ [sn] ∧ sn.cycle = s.cycle ∧
      sn.events = [.stall .txEmpty] ∧ (t.finished = false → t.cycle = s.cycle + 1 ∧ t.rxq = u.rxq) ∧
      t.received ++ t.rxq = u.received ++ u.rxq ∧
      Frame [.events, .trace, .cycle, .env, .rxq, .received, .finished] u t) ∧
  (∀ (s u : State) (w : Word), Runnable s → u = hostTurn s → u.phase = .setupA → u.txq = [w] →
    ∃ (t : State) (sn : Snapshot), step s = .next t ∧ t.trace = s.trace ++ [sn] ∧
      sn.events = [.pop w, .stall .txEmpty] ∧ t.cmd0 = w ∧ t.txq = [] ∧ t.phase = .setupB ∧
      Frame [.cmd0, .txq, .phase, .events, .trace, .cycle, .env] u t) ∧
  (∀ (s t : State) (sn : Snapshot), s.finished = false → step s = .next t → t.trace = s.trace ++ [sn] →
    .stall .txEmpty ∈ sn.events → popsTxq (hostTurn s) = true)

/-- The dispatch cycle of every command (40_dispatch R145): the registers loaded, `wpb` from the table, `cle` raised for
`cmd_latch` and `ale` for `addr_latch`, the first phase, and nothing else. -/
def Obligations.DispatchLoadsRegisters : Prop :=
  ∀ (i : Instr) (s : State), isSetup s.phase = true →
    ∃ t : State, exec i s = .next t ∧ t.cmd1 = i.cmd1 ∧ t.pindir = i.pinDirections ∧ t.cnt = i.transferCount ∧
      t.y = i.cmdId ∧ t.kind = i.kind ∧ t.phase = firstPhase i.kind ∧
      t.out.getLsbD 12 = wpbLevel s.cfg.wpbTable i.kind ∧
      t.out.getLsbD 10 = (decide (i.kind = .cmdLatch) || s.out.getLsbD 10) ∧
      t.out.getLsbD 11 = (decide (i.kind = .addrLatch) || s.out.getLsbD 11) ∧
      OutKeptBut [10, 11, 12] s t ∧ t.events = s.events ++ [.dispatch i.kind i.cmdId] ∧
      Frame [.cmd1, .pindir, .cnt, .y, .kind, .phase, .out, .events] s t

/-! ## The cycles of each command -/

/-- 41_pin_commands R171: `BB_EMIT` writes the low ten bits of `CMD1` to the data and chip-select latches, no control
pin, and returns to SETUP; `CNT` plays no part. -/
def Obligations.BitbangEmitsPayload : Prop :=
  ∀ (tc : BitVec 12) (pd : BitVec 16) (c1 : Word) (s : State), s.phase = .bbEmit →
    ∃ t : State, exec (.bitbang tc pd c1) s = .next t ∧ BusLatched s.cmd1 t ∧ OutKeptBut busBits s t ∧
      t.events = s.events ++ [.placement] ∧ t.phase = .setupA ∧ Frame [.out, .events, .phase] s t

/-- 41_pin_commands R176: `W_PLACE` of `cmd_latch` places `CMD1`; of `addr_latch` and `data_input` it places the word it
pops, and stalls before `web` falls when there is none. -/
def Obligations.WritePulsePlacement : Prop :=
  (∀ (tc : BitVec 12) (pd : BitVec 16) (c1 : Word) (s : State), s.phase = .wPlace →
    ∃ t : State, exec (.cmdLatch tc pd c1) s = .next t ∧ Placed s.cmd1 s t ∧ t.txq = s.txq ∧
      t.events = s.events ++ [.placement]) ∧
  (∀ (i : Instr) (s : State) (p : Word) (rest : List Word), i.kind = .addrLatch ∨ i.kind = .dataInput →
    s.phase = .wPlace → s.txq = p :: rest →
    ∃ t : State, exec i s = .next t ∧ Placed p s t ∧ t.txq = rest ∧ t.events = s.events ++ [.pop p, .placement]) ∧
  (∀ (i : Instr) (s : State), i.kind = .addrLatch ∨ i.kind = .dataInput → s.phase = .wPlace → s.txq = [] →
    ∃ t : State, exec i s = .next t ∧ t.events = s.events ++ [.stall .txEmpty] ∧ Frame [.events] s t)

/-- 41_pin_commands R178, with the successor of R180: `W_RISE` raises `web` and touches neither the bus nor a latch
enable. -/
def Obligations.WritePulseRise : Prop :=
  ∀ (i : Instr) (s : State), isWriteKind i.kind = true → s.phase = .wRise →
    ∃ t : State, exec i s = .next t ∧ t.out.getLsbD 13 = true ∧ OutKeptBut [13] s t ∧
      t.tmr = s.cfg.tHold - 1 ∧ t.events = s.events ++ [.latchPulse s.kind] ∧
      (s.cfg.tHold = 1 → PulseSuccessor i.kind s t) ∧
      (s.cfg.tHold ≠ 1 → t.phase = .wHigh ∧ t.cnt = s.cnt) ∧
      Frame [.out, .tmr, .events, .phase, .cnt] s t

/-- The waiting cycles (41_pin_commands R177, R179; 42_transfer_commands R202, R204): `TMR` goes down by one, the phase
stays until it is 0 and then moves on, and no pin changes. -/
def Obligations.TimedPhasesWait : Prop :=
  ∀ (i : Instr) (s : State), 1 ≤ s.tmr →
    (isWriteKind i.kind = true ∧ (s.phase = .wLow ∨ s.phase = .wHigh)) ∨
      (i.kind = .dataOutput ∧ (s.phase = .rLow ∨ s.phase = .rHigh)) →
    ∃ t : State, exec i s = .next t ∧ t.tmr + 1 = s.tmr ∧ Frame [.tmr, .phase, .cnt] s t ∧
      (s.tmr ≠ 1 → t.phase = s.phase ∧ t.cnt = s.cnt) ∧
      (s.tmr = 1 →
        (s.phase = .wLow → t.phase = .wRise ∧ t.cnt = s.cnt) ∧
        (s.phase = .wHigh → PulseSuccessor i.kind s t) ∧
        (s.phase = .rLow → t.phase = .rSample ∧ t.cnt = s.cnt) ∧
        (s.phase = .rHigh → LoopedBack .rFall .setupA s t))

/-- The exit cycles: `CL_EXIT` lowers `cle`, `AL_EXIT` lowers `ale`, and SETUP is next (41_pin_commands R181,
42_transfer_commands R193). -/
def Obligations.LatchEnableExits : Prop :=
  (∀ (tc : BitVec 12) (pd : BitVec 16) (c1 : Word) (s : State), s.phase = .clExit →
    ∃ t : State, exec (.cmdLatch tc pd c1) s = .next t ∧ t.out.getLsbD 10 = false ∧ OutKeptBut [10] s t ∧
      t.phase = .setupA ∧ Frame [.out, .phase] s t) ∧
  (∀ (tc : BitVec 12) (pd : BitVec 16) (c1 : Word) (s : State), s.phase = .alExit →
    ∃ t : State, exec (.addrLatch tc pd c1) s = .next t ∧ t.out.getLsbD 11 = false ∧ OutKeptBut [11] s t ∧
      t.phase = .setupA ∧ Frame [.out, .phase] s t)

/-- 42_transfer_commands R201: `R_FALL` lowers `reb`, loads `TMR` and goes to the sample or to the settle wait. -/
def Obligations.ReadPulseFalls : Prop :=
  ∀ (tc : BitVec 12) (pd : BitVec 16) (c1 : Word) (s : State), s.phase = .rFall →
    ∃ t : State, exec (.dataOutput tc pd c1) s = .next t ∧ t.out.getLsbD 14 = false ∧ OutKeptBut [14] s t ∧
      t.tmr = s.cfg.tRsettle - 1 ∧ t.phase = (if s.cfg.tRsettle = 1 then .rSample else .rLow) ∧
      Frame [.out, .tmr, .phase] s t

/-- `R_SAMPLE` (42_transfer_commands R203, 20_memory R81, 30_encoding R118): it stalls on a full `RXQ` with `reb` as it
was; otherwise it pushes the levels of pins 0 to 7 as a zero-extended word and raises `reb`. -/
def Obligations.ReadSamplePushes : Prop :=
  (∀ (tc : BitVec 12) (pd : BitVec 16) (c1 : Word) (s : State), s.phase = .rSample →
    s.rxq.length < s.cfg.rxDepth →
    ∃ (t : State) (w : Word) (b : Byte), exec (.dataOutput tc pd c1) s = .next t ∧
      t.rxq = s.rxq ++ [w] ∧ (∀ k : Nat, k < 8 → b.getLsbD k = s.level k) ∧ encodeData b.toNat = .ok w ∧
      (∀ k : Nat, w.getLsbD k = (decide (k < 8) && s.level k)) ∧
      t.out.getLsbD 14 = true ∧ OutKeptBut [14] s t ∧ t.tmr = s.cfg.tHold - 1 ∧
      t.events = s.events ++ [.readSample b] ∧
      (s.cfg.tHold = 1 → LoopedBack .rFall .setupA s t) ∧
      (s.cfg.tHold ≠ 1 → t.phase = .rHigh ∧ t.cnt = s.cnt) ∧
      Frame [.rxq, .out, .tmr, .events, .phase, .cnt] s t) ∧
  (∀ (tc : BitVec 12) (pd : BitVec 16) (c1 : Word) (s : State), s.phase = .rSample →
    s.rxq.length = s.cfg.rxDepth →
    ∃ t : State, exec (.dataOutput tc pd c1) s = .next t ∧ t.events = s.events ++ [.stall .rxFull] ∧
      Frame [.events] s t)

/-- 43_sync_commands R222: the `SIGNAL` step raises `IRQ`, records it and goes on to SETUP, whatever the queues and the
flag hold, writing no pin and touching no queue. -/
def Obligations.SignalRaisesFlag : Prop :=
  ∀ (tc : BitVec 12) (pd : BitVec 16) (c1 : Word) (s : State), s.phase = .signal →
    ∃ t : State, exec (.signal tc pd c1) s = .next t ∧ t.irq = true ∧ t.events = s.events ++ [.signalRaised] ∧
      t.phase = .setupA ∧ Frame [.irq, .events, .phase] s t

/-- 43_sync_commands R226, for the three `wait_rbb` constructors: polled from the cycle after dispatch on; ready ends the
command, busy changes nothing and records nothing. -/
def Obligations.WaitRbbPollsPin : Prop :=
  ∀ (i : Instr) (s : State), i.kind = .waitRbb →
    (isSetup s.phase = true → ∃ t : State, exec i s = .next t ∧ t.phase = .waitRbb) ∧
    (s.phase = .waitRbb → s.level 15 = true →
      ∃ t : State, exec i s = .next t ∧ t.events = s.events ++ [.rbbReady] ∧ t.phase = .setupA ∧
        Frame [.events, .phase] s t) ∧
    (s.phase = .waitRbb → s.level 15 = false → exec i s = .next s)

/-- A phase that is not one of the command's kind is refused by name: the model's treatment of the pairs no run reaches
(40_dispatch R151, 93 U18; log entry 8). -/
def Obligations.ForeignPhaseRefused : Prop :=
  ∀ (i : Instr) (s : State), phaseBelongs i.kind s.phase = false →
    exec i s = .refused (.unreachablePhase s.phase i.kind)

/-! ## Invariants and whole-machine rules -/

/-- From every legal control state one cycle of the state machine answers a next state, and a legal one: it never
faults, traps or refuses there, and the legal states are closed (40_dispatch R142, 93 U18). -/
def Obligations.MachineCycleNeverStops : Prop :=
  ∀ s : State, LegalControl s → ∃ t : State, machineCycle s = .next t ∧ LegalControl t

/-- Every step from a legal control state below the driver's ceiling answers a next state, and a legal one. -/
def Obligations.StepKeepsLegalControl : Prop :=
  ∀ s : State, LegalControl s → atCeiling s = false → ∃ t : State, step s = .next t ∧ LegalControl t

/-- Both occupancies stay within the configured depths, whatever the host does (10_state R37). -/
def Obligations.QueueOccupancyStaysBounded : Prop :=
  (∀ s t : State, QueuesBounded s → step s = .next t → QueuesBounded t) ∧
  (∀ (cfg : Cfg) (ws : List Word) (host : HostAgent) (env : List Pins) (n : Nat) (t : State), cfg.valid = true →
    Host.Core.run core n ({ State.resetWith cfg ws with host := host, env := env } : State) = .next t → QueuesBounded t)

/-- The strobes follow the phase, so between commands they are idle again (40_dispatch R152). -/
def Obligations.ControlPinsFollowPhase : Prop :=
  ∀ s t : State, PinsFollowPhase s → step s = .next t →
    PinsFollowPhase t ∧
    (isSetup t.phase = true → t.out.getLsbD 14 = true ∧ t.out.getLsbD 13 = true ∧ t.out.getLsbD 11 = false ∧
      t.out.getLsbD 10 = false)

/-- While a command runs, the registers are those its two words loaded, and it is the command those words decode to
(40_dispatch R145, R148; 20_memory R78). -/
def Obligations.RunningCommandIsTheDecodedOne : Prop :=
  ∀ s t : State, CommandHeld s → step s = .next t → CommandHeld t

/-- 10_state R34: no step, no cycle, no command and no host action changes the configuration. -/
def Obligations.ConfigurationIsReadOnly : Prop :=
  (∀ s t : State, step s = .next t → t.cfg = s.cfg) ∧
  (∀ (i : Instr) (s t : State), exec i s = .next t → t.cfg = s.cfg) ∧
  (∀ (a : HostAction) (s t : State), hostAct a s = some t → t.cfg = s.cfg) ∧
  (∀ (n : Nat) (s t : State), Host.Core.run core n s = .next t → t.cfg = s.cfg)

/-- 43_sync_commands R223: `IRQ`, once 1, stays 1 through every cycle and every host action but `ClearIrq`; a `signal`
executed while it is 1 leaves it 1 and is recorded as well. -/
def Obligations.IrqStickyUntilCleared : Prop :=
  (∀ s t : State, machineCycle s = .next t → s.irq = true → t.irq = true) ∧
  (∀ (a : HostAction) (s t : State), a ≠ .clearIrq → hostAct a s = some t → t.irq = s.irq) ∧
  (∀ s t : State, hostAct .clearIrq s = some t → t.irq = false) ∧
  (∀ s t : State, s.host = .driver → s.irq = true → step s = .next t → t.irq = true) ∧
  (∀ (tc : BitVec 12) (pd : BitVec 16) (c1 : Word) (s : State), s.phase = .signal → s.irq = true →
    ∃ t : State, exec (.signal tc pd c1) s = .next t ∧ readIrq t = readIrq s ∧
      t.events = s.events ++ [.signalRaised]) ∧
  (∀ (cfg : Cfg) (ws : List Word), (State.resetWith cfg ws).irq = false)

/-- The state machine never reads `IRQ` and only the `SIGNAL` step writes it: another value of the flag changes nothing
but the flag (10_state R26). -/
def Obligations.StateMachineNeverReadsIrq : Prop :=
  ∀ (s : State) (b : Bool),
    machineCycle { s with irq := b } =
      mapNext (fun t => { t with irq := b || decide (s.phase = .signal) }) (machineCycle s)

/-- The pins are read by `R_SAMPLE` and `WAIT_RBB` only: in every other phase another environment changes nothing
(60_exceptions R349, 20_memory R64). -/
def Obligations.EnvironmentReadOnlyWhenSampling : Prop :=
  ∀ (s : State) (e : List Pins), s.phase ≠ .rSample → s.phase ≠ .waitRbb →
    machineCycle { s with env := e } = mapNext (fun t => { t with env := e }) (machineCycle s)

/-- 60_exceptions R349: the state machine has no interrupt input. Pin 15 changes nothing outside `WAIT_RBB`; a host
action changes only the queues, `IRQ` and what the host has read, and a host's turn leaves the running command and its
phase alone; a running command stays the command that runs. -/
def Obligations.NothingDivertsARunningCommand : Prop :=
  (∀ (s : State) (a b : Pins) (rest : List Pins), s.phase ≠ .waitRbb →
    (∀ k : Nat, k ≠ 15 → a.getLsbD k = b.getLsbD k) →
    machineCycle { s with env := a :: rest } =
      mapNext (fun t => { t with env := a :: rest }) (machineCycle { s with env := b :: rest })) ∧
  (∀ (a : HostAction) (s t : State), hostAct a s = some t → Frame [.txq, .rxq, .irq, .received] s t) ∧
  (∀ s : State, Frame [.txq, .rxq, .irq, .pending, .received, .host] s (hostTurn s) ∧
    (hostTurn s).inFlight = s.inFlight) ∧
  (∀ s t : State, isSetup s.phase = false → machineCycle s = .next t →
    t.kind = s.kind ∧ t.inFlight = s.inFlight ∧ t.pindir = s.pindir ∧ t.y = s.y)

/-- What wakes a `wait_rbb` is pin 15 at level 1 and nothing else, whatever the host does between the steps; all state of
the machine survives the wait (43_sync_commands R226, R230). -/
def Obligations.WaitWakesOnPinOnly : Prop :=
  ∀ s : State, Runnable s → s.phase = .waitRbb → s.kind = .waitRbb →
    ∃ t : State, step s = .next t ∧ t.phase = (if s.level 15 = true then .setupA else .waitRbb) ∧
      Frame [.phase, .txq, .rxq, .irq, .pending, .received, .events, .cycle, .trace, .env, .host, .finished] s t

/-- No cycle changes both `web` and `reb`, none changes a latch enable and the bus, the directions and `wpb` change only
in a dispatch cycle, and `OUT[15]` never changes (40_dispatch R156; 10_state R27). -/
def Obligations.CycleChangesNoTwoStrobes : Prop :=
  ∀ s t : State, machineCycle s = .next t →
    (t.out.getLsbD 13 = s.out.getLsbD 13 ∨ t.out.getLsbD 14 = s.out.getLsbD 14) ∧
    ((t.out.getLsbD 10 = s.out.getLsbD 10 ∧ t.out.getLsbD 11 = s.out.getLsbD 11) ∨
      ∀ k : Nat, k < 10 → t.out.getLsbD k = s.out.getLsbD k) ∧
    (t.pindir ≠ s.pindir ∨ t.out.getLsbD 12 ≠ s.out.getLsbD 12 → DispatchCycle s) ∧
    t.out.getLsbD 15 = s.out.getLsbD 15

/-- A pin's level is its latch where it is an output and the environment's level where it is an input, and the snapshot
shows the levels (10_state R30, R31; 46_harness R281). -/
def Obligations.SnapshotShowsPinLevels : Prop :=
  ∀ (s : State),
    (∀ k : Nat, k < 16 →
      s.level k = if s.pindir.getLsbD k = true then s.out.getLsbD k else s.ext.getLsbD k) ∧
    (∀ k : Nat, k < 10 → (snapshot s).bus.getLsbD k = s.level k) ∧
    (∀ k : Nat, k < 5 → (snapshot s).ctrl.toBits.getLsbD k = s.level (10 + k)) ∧
    (snapshot s).rbb = s.level 15 ∧ (snapshot s).cycle = s.cycle ∧ (snapshot s).txocc = s.txq.length ∧
    (snapshot s).rxocc = s.rxq.length ∧ (snapshot s).completion = s.irq ∧ (snapshot s).events = s.events

/-- Under the Execution Driver the words popped so far, those in `TXQ` and those pending are together always the same
stream: every word is consumed once and in order (20_memory R71, R72; 46_harness R291). -/
def Obligations.CommandStreamOrderKept : Prop :=
  ∀ s t : State, s.host = .driver → step s = .next t →
    poppedWords t.trace ++ t.txq ++ t.pending = poppedWords s.trace ++ s.txq ++ s.pending ∧ t.host = .driver

/-- 20_memory R71, for every host: what is popped from `TXQ` and what is left in it is together what was there and what
the host appended in its turn, in that order; and what the host has read, to which a cycle only appends, and what waits in
`RXQ` is together the stream of sampled bytes, in sample order. -/
def Obligations.StreamsKeepOrder : Prop :=
  ∀ s t : State, s.finished = false → step s = .next t →
    (∃ pushed : List Word, (hostTurn s).txq = s.txq ++ pushed ∧
      poppedWords t.trace ++ t.txq = poppedWords s.trace ++ (s.txq ++ pushed)) ∧
    (∃ read : List Word, t.received = s.received ++ read) ∧
    (s.received ++ s.rxq = pushedWords s.trace → t.received ++ t.rxq = pushedWords t.trace)

/-- 46_harness R282: in every run from reset snapshot `i` has cycle `i`, and every cycle worked, a stall or a busy wait
included, adds one snapshot. -/
def Obligations.TraceCyclesContiguous : Prop :=
  (∀ (cfg : Cfg) (ws : List Word) (host : HostAgent) (env : List Pins) (n : Nat) (t : State),
    Host.Core.run core n ({ State.resetWith cfg ws with host := host, env := env } : State) = .next t →
    ∀ (i : Nat) (sn : Snapshot), t.trace[i]? = some sn → sn.cycle = i) ∧
  (∀ s t : State, s.finished = false → step s = .next t →
    ∃ sn : Snapshot, t.trace = s.trace ++ [sn] ∧ sn.cycle = s.cycle ∧ (t.finished = false → t.cycle = s.cycle + 1))

/-! ## The host -/

/-- The host's actions: their conditions and their whole effect (20_memory R70). -/
def Obligations.HostActionsOnlyTouchTheirQueue : Prop :=
  (∀ (w : Word) (s : State), s.txq.length < s.cfg.txDepth →
    ∃ t : State, hostAct (.push w) s = some t ∧ t.txq = s.txq ++ [w] ∧ Frame [.txq] s t) ∧
  (∀ (w : Word) (s : State), ¬ s.txq.length < s.cfg.txDepth → hostAct (.push w) s = none) ∧
  (∀ (w : Word) (rest : List Word) (s : State), s.rxq = w :: rest →
    ∃ t : State, hostAct .pop s = some t ∧ t.rxq = rest ∧ t.received = s.received ++ [w] ∧
      Frame [.rxq, .received] s t) ∧
  (∀ s : State, s.rxq = [] → hostAct .pop s = none) ∧
  (∀ s : State, ∃ t : State, hostAct .clearIrq s = some t ∧ t.irq = false ∧ Frame [.irq] s t) ∧
  (∀ s : State, hostAct .readIrq s = some s ∧ readIrq s = s.irq)

/-- The driver's services: pending words are pushed in order, as many as the coming step pops and the depth allows and
none more, and `RXQ` is drained exactly before a blocked sample (46_harness R291, R292, R297). -/
def Obligations.DriverSuppliesDemand : Prop :=
  ∀ s : State,
    (∃ pushed : List Word, (servicePop s).txq = s.txq ++ pushed ∧ s.pending = pushed ++ (servicePop s).pending ∧
      (s.txq.length + pushed.length ≤ min (demand s) s.cfg.txDepth ∨ pushed = []) ∧
      ((servicePop s).pending = [] ∨ min (demand s) s.cfg.txDepth ≤ (servicePop s).txq.length)) ∧
    Frame [.txq, .pending] s (servicePop s) ∧
    (s.phase = .rSample → s.rxq.length = s.cfg.rxDepth →
      (servicePush s).rxq = [] ∧ (servicePush s).received = s.received ++ s.rxq) ∧
    (s.phase ≠ .rSample ∨ s.rxq.length < s.cfg.rxDepth → servicePush s = s) ∧
    Frame [.rxq, .received] s (servicePush s)

/-! ## Whole commands under the Execution Driver, with a `TX_DEPTH` of at least 2 (`DriverReady`) -/

/-- `bitbang` takes its two cycles and leaves its payload on the latches (40_dispatch R153; 41_pin_commands R170, R172). -/
def Obligations.BitbangTakesTwoCycles : Prop :=
  ∀ (s : State) (tc : BitVec 12) (pd : BitVec 16) (c1 : Word) (rest : List Word),
    DriverReady s → s.pending = encode (.bitbang tc pd c1) ++ rest →
    s.cycle + commandCycles s.cfg .bitbang 1 ≤ s.cfg.maxCycles →
    BusyUntil (commandCycles s.cfg .bitbang 1) s ∧
    AfterSteps (commandCycles s.cfg .bitbang 1) s fun t =>
      DriverReady t ∧ t.pending = rest ∧ t.kind = .bitbang ∧ t.pindir = pd ∧ BusLatched c1 t ∧
      t.out.getLsbD 12 = wpbLevel s.cfg.wpbTable .bitbang ∧ OutKeptBut (12 :: busBits) s t ∧
      t.cycle = s.cycle + commandCycles s.cfg .bitbang 1 ∧ t.irq = s.irq ∧ t.rxq = s.rxq ∧ t.received = s.received

/-- `cmd_latch` takes `1 + T_SETUP + T_HOLD + 1` cycles, and its trace is the table of 41_pin_commands R182: `cle` high
until the last cycle, `web` low for `T_SETUP` cycles from the second on, the payload on the bus from the second on. -/
def Obligations.CmdLatchCycleTable : Prop :=
  ∀ (s : State) (tc : BitVec 12) (pd : BitVec 16) (c1 : Word) (rest : List Word) (n : Nat),
    DriverReady s → s.pending = encode (.cmdLatch tc pd c1) ++ rest → s.out.getLsbD 13 = true →
    n = commandCycles s.cfg .cmdLatch 1 → s.cycle + n ≤ s.cfg.maxCycles →
    BusyUntil n s ∧
    AfterSteps n s fun t =>
      DriverReady t ∧ t.pending = rest ∧ t.kind = .cmdLatch ∧ t.pindir = pd ∧ BusLatched c1 t ∧
      t.out.getLsbD 10 = false ∧ t.out.getLsbD 13 = true ∧ OutKeptBut (10 :: 12 :: 13 :: busBits) s t ∧
      t.cycle = s.cycle + n ∧ t.rxq = s.rxq ∧ t.received = s.received ∧ (newTrace s t).length = n ∧
      ∀ (j : Nat) (sn : Snapshot), (newTrace s t)[j]? = some sn →
        sn.cycle = s.cycle + j ∧
        (pd.getLsbD 10 = true → sn.ctrl.cle = decide (j + 1 < n)) ∧
        (pd.getLsbD 13 = true → sn.ctrl.web = !(decide (1 ≤ j) && decide (j ≤ s.cfg.tSetup))) ∧
        (1 ≤ j → ∀ k : Nat, k < 10 → pd.getLsbD k = true → sn.bus.getLsbD k = c1.getLsbD k)

/-- `addr_latch` performs `transfer_count + 1` latch pulses, one per payload word and in their order, and leaves `ale` low,
in `1 + n (T_SETUP + T_HOLD) + 1` cycles (42_transfer_commands R190, R191, R194; 40_dispatch R153). That `ale` is high at
the pulses is what `ControlPinsFollowPhase` says. -/
def Obligations.AddrLatchSendsEveryPayloadWord : Prop :=
  ∀ (s : State) (tc : BitVec 12) (pd : BitVec 16) (c1 : Word) (payload rest : List Word) (n : Nat),
    DriverReady s → s.pending = encode (.addrLatch tc pd c1) ++ payload ++ rest → payload.length = tc.toNat + 1 →
    n = commandCycles s.cfg .addrLatch (tc.toNat + 1) → s.cycle + n ≤ s.cfg.maxCycles →
    BusyUntil n s ∧
    AfterSteps n s fun t =>
      DriverReady t ∧ t.pending = rest ∧ t.kind = .addrLatch ∧ t.cnt = 0 ∧ t.pindir = pd ∧
      t.out.getLsbD 11 = false ∧ t.out.getLsbD 13 = true ∧ OutKeptBut (11 :: 12 :: 13 :: busBits) s t ∧
      t.cycle = s.cycle + n ∧ t.rxq = s.rxq ∧ t.received = s.received ∧ (newTrace s t).length = n ∧
      poppedWords (newTrace s t) = encode (.addrLatch tc pd c1) ++ payload ∧
      (latchedBus .addrLatch (newTrace s t)).length = tc.toNat + 1 ∧
      ((∀ k : Nat, k < 10 → pd.getLsbD k = true) → latchedBus .addrLatch (newTrace s t) = payload.map p10Field)

/-- `data_input` performs `transfer_count + 1` latch pulses, one per payload word and in their order, with the latch
enables as they were, in `1 + n (T_SETUP + T_HOLD)` cycles (42_transfer_commands R210, R211, R213). -/
def Obligations.DataInputSendsEveryPayloadWord : Prop :=
  ∀ (s : State) (tc : BitVec 12) (pd : BitVec 16) (c1 : Word) (payload rest : List Word) (n : Nat),
    DriverReady s → s.pending = encode (.dataInput tc pd c1) ++ payload ++ rest → payload.length = tc.toNat + 1 →
    n = commandCycles s.cfg .dataInput (tc.toNat + 1) → s.cycle + n ≤ s.cfg.maxCycles →
    BusyUntil n s ∧
    AfterSteps n s fun t =>
      DriverReady t ∧ t.pending = rest ∧ t.kind = .dataInput ∧ t.cnt = 0 ∧ t.pindir = pd ∧
      t.out.getLsbD 13 = true ∧ OutKeptBut (12 :: 13 :: busBits) s t ∧
      t.cycle = s.cycle + n ∧ t.rxq = s.rxq ∧ t.received = s.received ∧ (newTrace s t).length = n ∧
      poppedWords (newTrace s t) = encode (.dataInput tc pd c1) ++ payload ∧
      (latchedBus .dataInput (newTrace s t)).length = tc.toNat + 1 ∧
      ((∀ k : Nat, k < 10 → pd.getLsbD k = true) → latchedBus .dataInput (newTrace s t) = payload.map p10Field)

/-- `data_output` performs `transfer_count + 1` read pulses in `1 + n (T_RSETTLE + T_HOLD)` cycles and pushes as many
words, the `k`-th the data pins' levels in the cycle `T_RSETTLE` after the `k`-th fall, in sample order
(42_transfer_commands R200, R205, R206, R207). -/
def Obligations.DataOutputReturnsSampledBytes : Prop :=
  ∀ (s : State) (tc : BitVec 12) (pd : BitVec 16) (c1 : Word) (rest : List Word) (n : Nat) (samples : List Word),
    DriverReady s → s.pending = encode (.dataOutput tc pd c1) ++ rest →
    n = commandCycles s.cfg .dataOutput (tc.toNat + 1) → s.cycle + n ≤ s.cfg.maxCycles →
    samples = (List.range (tc.toNat + 1)).map (fun k =>
      d8Word (((pd &&& s.out) ||| (~~~pd &&&
        extAt s (s.cycle + 1 + k * (s.cfg.tRsettle + s.cfg.tHold) + s.cfg.tRsettle))).extractLsb' 0 8)) →
    BusyUntil n s ∧
    AfterSteps n s fun t =>
      DriverReady t ∧ t.pending = rest ∧ t.kind = .dataOutput ∧ t.cnt = 0 ∧ t.pindir = pd ∧
      t.out.getLsbD 14 = true ∧ OutKeptBut [12, 14] s t ∧ t.cycle = s.cycle + n ∧ (newTrace s t).length = n ∧
      pushedWords (newTrace s t) = samples ∧ t.received ++ t.rxq = s.received ++ s.rxq ++ samples

/-- `signal` takes its two cycles and leaves `IRQ` raised (43_sync_commands R220, R222; 40_dispatch R153). -/
def Obligations.SignalTakesTwoCycles : Prop :=
  ∀ (s : State) (tc : BitVec 12) (pd : BitVec 16) (c1 : Word) (rest : List Word),
    DriverReady s → s.cfg.id5Mode = .signal → s.pending = encode (.signal tc pd c1) ++ rest →
    s.cycle + commandCycles s.cfg .signal 1 ≤ s.cfg.maxCycles →
    BusyUntil (commandCycles s.cfg .signal 1) s ∧
    AfterSteps (commandCycles s.cfg .signal 1) s fun t =>
      t.phase = .setupA ∧ t.kind = .signal ∧ t.irq = true ∧ t.pending = rest ∧ t.txq = [] ∧ t.pindir = pd ∧
      t.out.getLsbD 12 = wpbLevel s.cfg.wpbTable .signal ∧ OutKeptBut [12] s t ∧
      t.received ++ t.rxq = s.received ++ s.rxq ∧
      (newTrace s t).map Snapshot.completion = [s.irq, true]

/-- `wait_rbb` of any id takes `1 + p` cycles, `p` the first cycle after its dispatch in which pin 15 reads 1
(43_sync_commands R225, R226, R227; 40_dispatch R153). -/
def Obligations.WaitRbbEndsAtFirstReady : Prop :=
  ∀ (s : State) (i : Instr) (rest : List Word) (p : Nat),
    DriverReady s → i.kind = .waitRbb → i.wellFormed s.cfg.id5Mode = true → i.pinDirections.getLsbD 15 = false →
    s.pending = encode i ++ rest → s.cycle + commandCycles s.cfg .waitRbb p ≤ s.cfg.maxCycles →
    1 ≤ p → (∀ j : Nat, 1 ≤ j → j < p → (extAt s (s.cycle + j)).getLsbD 15 = false) →
    (extAt s (s.cycle + p)).getLsbD 15 = true →
    BusyUntil (commandCycles s.cfg .waitRbb p) s ∧
    AfterSteps (commandCycles s.cfg .waitRbb p) s fun t =>
      t.phase = .setupA ∧ t.kind = .waitRbb ∧ t.pending = rest ∧ t.txq = [] ∧ t.pindir = i.pinDirections ∧
      t.irq = s.irq ∧ OutKeptBut [12] s t ∧ t.received ++ t.rxq = s.received ++ s.rxq ∧
      (newTrace s t).length = commandCycles s.cfg .waitRbb p

/-- 43_sync_commands R228: with pin 15 read as 0 in every cycle the machine stays in `WAIT_RBB` however many cycles pass,
every latch as it was; the only ceiling is the driver's. -/
def Obligations.WaitRbbHasNoTimeout : Prop :=
  (∀ (n : Nat) (s : State), s.cfg.valid = true → s.finished = false → s.host = .script [] → s.phase = .waitRbb →
    s.kind = .waitRbb → s.pindir.getLsbD 15 = false →
    (∀ c : Nat, s.cycle ≤ c → c < s.cycle + n → (extAt s c).getLsbD 15 = false) →
    AfterSteps n s fun t => t.cycle = s.cycle + n ∧ Frame [.cycle, .trace, .events, .env] s t) ∧
  (∀ s : State, s.cfg.valid = true → s.finished = false → s.host = .driver → s.cfg.maxCycles ≤ s.cycle →
    step s = .fault (.cycleCeiling s.cfg.maxCycles)) ∧
  (∀ (s : State) (turns : List (List HostAction)) (f : Fault), s.host = .script turns → step s ≠ .fault f)

/-! ## The Scenario Builder, the verifier, the emitter -/

/-- 45_scenarios R260: the word list of every scenario, under both variants and all parameters for which it can be
assembled (those that `build` refuses for their range included), decodes to one command per line of its expansion, the
last one `wait_rbb` or `signal`, and passes validation. -/
def Obligations.ScenariosTerminate : Prop :=
  ∀ (m : Id5Mode) (p : Params) (n : ScenarioName) (ws : List Word), assemble m (expansion p n) = .ok ws →
    ∃ (cs : List Command) (c : Command), decodeStream m ws = .ok cs ∧ cs.length = (expansion p n).length ∧
      cs.getLast? = some c ∧ (c.kind = .waitRbb ∨ c.kind = .signal) ∧ validate m ws = .ok cs

/-- A name is selected exactly when it is one of the six, letter for letter (45_scenarios R241, 60_exceptions R346). -/
def Obligations.UnknownScenarioNamed : Prop :=
  ∀ name : String,
    (∀ n : ScenarioName, selectScenario name = .ok n ↔ n.text = name) ∧
    ((∀ n : ScenarioName, n.text ≠ name) ↔ selectScenario name = .error (.unknownScenario name))

/-- The search behind the verifier's definitions gives the least start of a run (46_harness R302). -/
def Obligations.RunStartIsLeast : Prop :=
  ∀ (p : Nat → Bool) (k : Nat),
    runStart p k ≤ k ∧ (∀ j : Nat, runStart p k ≤ j → j < k → p j = true) ∧
    (∀ j : Nat, j < runStart p k → ∃ i : Nat, j ≤ i ∧ i < k ∧ p i = false)

/-- The verifier passes a trace exactly when the trace satisfies all four checks (46_harness R301 to R308). That an empty
trace passes the first is the model's choice (log entry 16). -/
def Obligations.VerifierPassesExactlySoundTraces : Prop :=
  ∀ (cfg : Cfg) (declOut declIn : Nat) (received : List Word) (tr : Trace),
    verify cfg declOut declIn received tr = .ok () ↔
    (∀ (i : Nat) (sn : Snapshot), tr[i]? = some sn →
      sn.cycle = i ∧ sn.txocc ≤ cfg.txDepth ∧ sn.rxocc ≤ cfg.rxDepth) ∧
    (∀ e : Nat, isWriteEdge tr e = true →
      cfg.tSetup ≤ e - placementOf tr e ∧
      (∀ j : Nat, e < j → j < tr.length → samePins tr j e = false → e + cfg.tHold ≤ j) ∧
      (aleAt tr e = true → enableStart (aleAt tr) e < placementOf tr e) ∧
      (cleAt tr e = true → enableStart (cleAt tr) e < placementOf tr e)) ∧
    (∀ r : Nat, isReadEdge tr r = true → cfg.tRsettle ≤ r - readFallOf tr r) ∧
    readEdges tr = declOut ∧ dataWriteEdges tr = declIn ∧ received.length = declOut

/-- The verifier reports check 2's violation of the lowest cycle, and of the first sub-check among those
(46_harness R309). -/
def Obligations.FirstFindingIsReported : Prop :=
  ∀ (fs : List TimingFinding),
    (fs = [] ↔ firstFinding fs = none) ∧
    ∀ f : TimingFinding, firstFinding fs = some f →
      f ∈ fs ∧ ∀ g ∈ fs, f.cycle < g.cycle ∨ (f.cycle = g.cycle ∧ f.rank ≤ g.rank)

/-- The emitter drops nothing: two contiguous traces with the same records are the same trace (46_harness R322). -/
def Obligations.EmitterDropsNothing : Prop :=
  ∀ tr tr' : Trace, firstGap 0 tr = none → firstGap 0 tr' = none → emit tr = emit tr' → tr = tr'

/-- The builder answers exactly the words its lines assemble to, for parameters of the scenario within the ranges of
45_scenarios R243; an encoding error of a line is reported as that error, out of range or not (95 V65). That a parameter
out of range which gives no encoding error is refused is the model's choice (log entry 23). -/
def Obligations.BuilderChecksParameterRanges : Prop :=
  (∀ (m : Id5Mode) (p : Params) (n : ScenarioName) (ws : List Word),
    build m p n = .ok ws ↔
      assemble m (expansion p n) = .ok ws ∧
      (n = .readId → 1 ≤ p.idLen ∧ p.idLen ≤ 4096) ∧
      (n = .read ∨ n = .program →
        p.colCycles ≤ 4096 ∧ 1 ≤ p.colCycles + p.rowCycles ∧ p.colCycles + p.rowCycles ≤ 4096) ∧
      (n = .read ∨ n = .program ∨ n = .erase → 1 ≤ p.rowCycles ∧ p.rowCycles ≤ 4096) ∧
      (n = .read → 1 ≤ p.readLen ∧ p.readLen ≤ 4096) ∧
      (n = .program → 1 ≤ p.progData.length ∧ p.progData.length ≤ 4096)) ∧
  (∀ (m : Id5Mode) (p : Params) (n : ScenarioName) (e : HarnessError),
    build m p n = .error (.error e) ↔ assemble m (expansion p n) = .error e)

/-- The two re-emissions of the opaque program (46_harness R332): the image stores each word as 4 bytes, least significant
byte first (20_memory R61), reading words back from it gives the program, and the literal carries the same bytes. That
there is one word per word of the program, with no filler for free slots, and that the literal's elements are words and not
bytes, are the model's choices (log entry 22). -/
def Obligations.ProgramEmissionsAgree : Prop :=
  ∀ program : List Word,
    (programLiteral program).bytes = programImage program ∧
    (programImage program).length = 4 * program.length ∧
    wordsOfBytes (programImage program) = program ∧
    (∀ (k j : Nat) (w : Word), program[k]? = some w → j < 4 →
      (programImage program)[4 * k + j]? = some (w.extractLsb' (8 * j) 8)) ∧
    (programLiteral program).elements = program

/-- Within the ranges of 45_scenarios R243 every scenario builds, under both variants (R242, R246 to R251). -/
def Obligations.InRangeParametersBuildEveryScenario : Prop :=
  ∀ (m : Id5Mode) (p : Params) (n : ScenarioName),
    (1 ≤ p.idLen ∧ p.idLen ≤ 4096) → (1 ≤ p.rowCycles ∧ p.rowCycles ≤ 4096) → p.colCycles + p.rowCycles ≤ 4096 →
    (1 ≤ p.readLen ∧ p.readLen ≤ 4096) → (1 ≤ p.progData.length ∧ p.progData.length ≤ 4096) →
    p.inRange = true ∧ ∃ ws : List Word, build m p n = .ok ws

/-- The batch isolates failures (60_exceptions R353, 90 C9): it runs the six names in order, each result is that of
`run_scenario` alone, it passes exactly when every result is a success, and a length or a cycle count changes the build of
no scenario but those that use it, so an encoding error it gives is fatal to those only. That this holds for values outside
their range of 45_scenarios R243 too is the model's choice (log entry 23). -/
def Obligations.BatchIsolatesScenarios : Prop :=
  (∀ (cfg : Cfg) (p : Params) (rbbIn : ScenarioName → Nat → Bool) (chipIo : ScenarioName → Nat → Byte),
    (runAll cfg p rbbIn chipIo).results = [ScenarioName.reset, .readId, .read, .program, .erase, .statusRead].map
      (fun n => (n, runScenario cfg p (rbbIn n) (chipIo n) n.text)) ∧
    ((runAll cfg p rbbIn chipIo).pass = true ↔
      ∀ r ∈ (runAll cfg p rbbIn chipIo).results, ∃ out : ScenarioResult, r.2 = .ok out)) ∧
  (∀ (m : Id5Mode) (p : Params) (n : ScenarioName) (v : Nat) (data : List Byte),
    (n ≠ .readId → build m { p with idLen := v } n = build m p n) ∧
    (n ≠ .read → build m { p with readLen := v } n = build m p n) ∧
    (n ≠ .program → build m { p with progData := data } n = build m p n) ∧
    (n ≠ .read → n ≠ .program → build m { p with colCycles := v } n = build m p n) ∧
    (n ≠ .read → n ≠ .program → n ≠ .erase → build m { p with rowCycles := v } n = build m p n))
end

