-- ==== Sys2Proof/Laws/Bits.lean ====
section
/-! SUPPORT. What the writes of `OUT` do bit by bit, and the pin levels bit by bit. -/

namespace Sys2Proof.Machine

/-- Writing bit `k` writes bit `k` and no other. -/
theorem getLsbD_setBit (v : Pins) (k i : Nat) (b : Bool) (hk : k < 16) :
    (setBit v k b).getLsbD i = if i = k then b else v.getLsbD i := by
  unfold setBit
  by_cases hi : i < 16
  · by_cases hik : i = k
    · subst hik
      cases b <;> simp [hi]
    · cases b <;> simp [hi, hik]
  · have hne : i ≠ k := by omega
    simp [hne, BitVec.getLsbD_of_ge _ _ (Nat.le_of_not_lt hi)]

/-- Writing bit `k` writes bit `k` and no other, for bits written with an index in range. -/
theorem getElem_setBit (v : Pins) (k i : Nat) (b : Bool) (hk : k < 16) (hi : i < 16) :
    (setBit v k b)[i] = if i = k then b else v[i] := by
  have h := getLsbD_setBit v k i b hk
  simpa [hi] using h

/-- Writing the payload writes bits 9:0 with bits 9:0 of the word and no other. -/
theorem getLsbD_setPayload (o : Pins) (p : Word) (i : Nat) :
    (setPayload o p).getLsbD i = if i < 10 then p.getLsbD i else o.getLsbD i := by
  unfold setPayload setCs setIo p10Byte p10Cs
  by_cases hi : i < 16
  · interval_cases i <;> simp
  · simp [BitVec.getLsbD_of_ge _ _ (Nat.le_of_not_lt hi), show ¬ i < 10 by omega]

/-- Writing the payload writes bits 9:0, for bits written with an index in range. -/
theorem getElem_setPayload (o : Pins) (p : Word) (i : Nat) (hi : i < 16) :
    (setPayload o p)[i] = if i < 10 then p.getLsbD i else o[i] := by
  have h := getLsbD_setPayload o p i
  simpa [hi] using h

/-- A pin's level: the latch of an output, the environment's level of an input (10_state R30). -/
theorem level_eq (s : State) (i : Nat) (hi : i < 16) :
    s.level i = if s.pindir.getLsbD i = true then s.out.getLsbD i else s.ext.getLsbD i := by
  unfold State.level State.levels
  rw [BitVec.getLsbD_or, BitVec.getLsbD_and, BitVec.getLsbD_and, BitVec.getLsbD_not]
  cases s.pindir.getLsbD i <;> simp [hi]

/-- The sampled byte is the levels of pins 7 to 0. -/
theorem getLsbD_sampledByte (s : State) (i : Nat) :
    s.sampledByte.getLsbD i = (decide (i < 8) && s.level i) := by
  simp [State.sampledByte, State.level, BitVec.getLsbD_extractLsb']

/-- The bus vector is the levels of pins 9 to 0. -/
theorem getLsbD_busLevels (s : State) (i : Nat) :
    s.busLevels.getLsbD i = (decide (i < 10) && s.level i) := by
  simp [State.busLevels, State.level, BitVec.getLsbD_extractLsb']

end Sys2Proof.Machine
end

