-- ==== Sys2Proof/Laws/State.lean ====
section
/-! SUPPORT. One lemma per field per update of State, so that no later proof unfolds a record update. -/

namespace Sys2Proof.Machine

/-! ### `goto` -/

@[simp] theorem State.goto_cfg (s : State) (p : Phase) : (s.goto p).cfg = s.cfg := rfl
@[simp] theorem State.goto_phase (s : State) (p : Phase) : (s.goto p).phase = p := rfl
@[simp] theorem State.goto_kind (s : State) (p : Phase) : (s.goto p).kind = s.kind := rfl
@[simp] theorem State.goto_tmr (s : State) (p : Phase) : (s.goto p).tmr = s.tmr := rfl
@[simp] theorem State.goto_cmd0 (s : State) (p : Phase) : (s.goto p).cmd0 = s.cmd0 := rfl
@[simp] theorem State.goto_cmd1 (s : State) (p : Phase) : (s.goto p).cmd1 = s.cmd1 := rfl
@[simp] theorem State.goto_y (s : State) (p : Phase) : (s.goto p).y = s.y := rfl
@[simp] theorem State.goto_cnt (s : State) (p : Phase) : (s.goto p).cnt = s.cnt := rfl
@[simp] theorem State.goto_pindir (s : State) (p : Phase) : (s.goto p).pindir = s.pindir := rfl
@[simp] theorem State.goto_out (s : State) (p : Phase) : (s.goto p).out = s.out := rfl
@[simp] theorem State.goto_irq (s : State) (p : Phase) : (s.goto p).irq = s.irq := rfl
@[simp] theorem State.goto_txq (s : State) (p : Phase) : (s.goto p).txq = s.txq := rfl
@[simp] theorem State.goto_rxq (s : State) (p : Phase) : (s.goto p).rxq = s.rxq := rfl
@[simp] theorem State.goto_cycle (s : State) (p : Phase) : (s.goto p).cycle = s.cycle := rfl
@[simp] theorem State.goto_pending (s : State) (p : Phase) : (s.goto p).pending = s.pending := rfl
@[simp] theorem State.goto_received (s : State) (p : Phase) : (s.goto p).received = s.received := rfl
@[simp] theorem State.goto_trace (s : State) (p : Phase) : (s.goto p).trace = s.trace := rfl
@[simp] theorem State.goto_events (s : State) (p : Phase) : (s.goto p).events = s.events := rfl
@[simp] theorem State.goto_host (s : State) (p : Phase) : (s.goto p).host = s.host := rfl
@[simp] theorem State.goto_env (s : State) (p : Phase) : (s.goto p).env = s.env := rfl
@[simp] theorem State.goto_finished (s : State) (p : Phase) : (s.goto p).finished = s.finished := rfl

/-! ### `record` -/

@[simp] theorem State.record_cfg (s : State) (e : Event) : (s.record e).cfg = s.cfg := rfl
@[simp] theorem State.record_phase (s : State) (e : Event) : (s.record e).phase = s.phase := rfl
@[simp] theorem State.record_kind (s : State) (e : Event) : (s.record e).kind = s.kind := rfl
@[simp] theorem State.record_tmr (s : State) (e : Event) : (s.record e).tmr = s.tmr := rfl
@[simp] theorem State.record_cmd0 (s : State) (e : Event) : (s.record e).cmd0 = s.cmd0 := rfl
@[simp] theorem State.record_cmd1 (s : State) (e : Event) : (s.record e).cmd1 = s.cmd1 := rfl
@[simp] theorem State.record_y (s : State) (e : Event) : (s.record e).y = s.y := rfl
@[simp] theorem State.record_cnt (s : State) (e : Event) : (s.record e).cnt = s.cnt := rfl
@[simp] theorem State.record_pindir (s : State) (e : Event) : (s.record e).pindir = s.pindir := rfl
@[simp] theorem State.record_out (s : State) (e : Event) : (s.record e).out = s.out := rfl
@[simp] theorem State.record_irq (s : State) (e : Event) : (s.record e).irq = s.irq := rfl
@[simp] theorem State.record_txq (s : State) (e : Event) : (s.record e).txq = s.txq := rfl
@[simp] theorem State.record_rxq (s : State) (e : Event) : (s.record e).rxq = s.rxq := rfl
@[simp] theorem State.record_cycle (s : State) (e : Event) : (s.record e).cycle = s.cycle := rfl
@[simp] theorem State.record_pending (s : State) (e : Event) : (s.record e).pending = s.pending := rfl
@[simp] theorem State.record_received (s : State) (e : Event) : (s.record e).received = s.received := rfl
@[simp] theorem State.record_trace (s : State) (e : Event) : (s.record e).trace = s.trace := rfl
@[simp] theorem State.record_events (s : State) (e : Event) : (s.record e).events = s.events ++ [e] := rfl
@[simp] theorem State.record_host (s : State) (e : Event) : (s.record e).host = s.host := rfl
@[simp] theorem State.record_env (s : State) (e : Event) : (s.record e).env = s.env := rfl
@[simp] theorem State.record_finished (s : State) (e : Event) : (s.record e).finished = s.finished := rfl

/-! ### `setOut` -/

@[simp] theorem State.setOut_cfg (s : State) (o : Pins) : (s.setOut o).cfg = s.cfg := rfl
@[simp] theorem State.setOut_phase (s : State) (o : Pins) : (s.setOut o).phase = s.phase := rfl
@[simp] theorem State.setOut_kind (s : State) (o : Pins) : (s.setOut o).kind = s.kind := rfl
@[simp] theorem State.setOut_tmr (s : State) (o : Pins) : (s.setOut o).tmr = s.tmr := rfl
@[simp] theorem State.setOut_cmd0 (s : State) (o : Pins) : (s.setOut o).cmd0 = s.cmd0 := rfl
@[simp] theorem State.setOut_cmd1 (s : State) (o : Pins) : (s.setOut o).cmd1 = s.cmd1 := rfl
@[simp] theorem State.setOut_y (s : State) (o : Pins) : (s.setOut o).y = s.y := rfl
@[simp] theorem State.setOut_cnt (s : State) (o : Pins) : (s.setOut o).cnt = s.cnt := rfl
@[simp] theorem State.setOut_pindir (s : State) (o : Pins) : (s.setOut o).pindir = s.pindir := rfl
@[simp] theorem State.setOut_out (s : State) (o : Pins) : (s.setOut o).out = o := rfl
@[simp] theorem State.setOut_irq (s : State) (o : Pins) : (s.setOut o).irq = s.irq := rfl
@[simp] theorem State.setOut_txq (s : State) (o : Pins) : (s.setOut o).txq = s.txq := rfl
@[simp] theorem State.setOut_rxq (s : State) (o : Pins) : (s.setOut o).rxq = s.rxq := rfl
@[simp] theorem State.setOut_cycle (s : State) (o : Pins) : (s.setOut o).cycle = s.cycle := rfl
@[simp] theorem State.setOut_pending (s : State) (o : Pins) : (s.setOut o).pending = s.pending := rfl
@[simp] theorem State.setOut_received (s : State) (o : Pins) : (s.setOut o).received = s.received := rfl
@[simp] theorem State.setOut_trace (s : State) (o : Pins) : (s.setOut o).trace = s.trace := rfl
@[simp] theorem State.setOut_events (s : State) (o : Pins) : (s.setOut o).events = s.events := rfl
@[simp] theorem State.setOut_host (s : State) (o : Pins) : (s.setOut o).host = s.host := rfl
@[simp] theorem State.setOut_env (s : State) (o : Pins) : (s.setOut o).env = s.env := rfl
@[simp] theorem State.setOut_finished (s : State) (o : Pins) : (s.setOut o).finished = s.finished := rfl

/-! ### `setTmr` -/

@[simp] theorem State.setTmr_cfg (s : State) (n : Nat) : (s.setTmr n).cfg = s.cfg := rfl
@[simp] theorem State.setTmr_phase (s : State) (n : Nat) : (s.setTmr n).phase = s.phase := rfl
@[simp] theorem State.setTmr_kind (s : State) (n : Nat) : (s.setTmr n).kind = s.kind := rfl
@[simp] theorem State.setTmr_tmr (s : State) (n : Nat) : (s.setTmr n).tmr = n := rfl
@[simp] theorem State.setTmr_cmd0 (s : State) (n : Nat) : (s.setTmr n).cmd0 = s.cmd0 := rfl
@[simp] theorem State.setTmr_cmd1 (s : State) (n : Nat) : (s.setTmr n).cmd1 = s.cmd1 := rfl
@[simp] theorem State.setTmr_y (s : State) (n : Nat) : (s.setTmr n).y = s.y := rfl
@[simp] theorem State.setTmr_cnt (s : State) (n : Nat) : (s.setTmr n).cnt = s.cnt := rfl
@[simp] theorem State.setTmr_pindir (s : State) (n : Nat) : (s.setTmr n).pindir = s.pindir := rfl
@[simp] theorem State.setTmr_out (s : State) (n : Nat) : (s.setTmr n).out = s.out := rfl
@[simp] theorem State.setTmr_irq (s : State) (n : Nat) : (s.setTmr n).irq = s.irq := rfl
@[simp] theorem State.setTmr_txq (s : State) (n : Nat) : (s.setTmr n).txq = s.txq := rfl
@[simp] theorem State.setTmr_rxq (s : State) (n : Nat) : (s.setTmr n).rxq = s.rxq := rfl
@[simp] theorem State.setTmr_cycle (s : State) (n : Nat) : (s.setTmr n).cycle = s.cycle := rfl
@[simp] theorem State.setTmr_pending (s : State) (n : Nat) : (s.setTmr n).pending = s.pending := rfl
@[simp] theorem State.setTmr_received (s : State) (n : Nat) : (s.setTmr n).received = s.received := rfl
@[simp] theorem State.setTmr_trace (s : State) (n : Nat) : (s.setTmr n).trace = s.trace := rfl
@[simp] theorem State.setTmr_events (s : State) (n : Nat) : (s.setTmr n).events = s.events := rfl
@[simp] theorem State.setTmr_host (s : State) (n : Nat) : (s.setTmr n).host = s.host := rfl
@[simp] theorem State.setTmr_env (s : State) (n : Nat) : (s.setTmr n).env = s.env := rfl
@[simp] theorem State.setTmr_finished (s : State) (n : Nat) : (s.setTmr n).finished = s.finished := rfl

/-! ### `setCnt` -/

@[simp] theorem State.setCnt_cfg (s : State) (c : BitVec 12) : (s.setCnt c).cfg = s.cfg := rfl
@[simp] theorem State.setCnt_phase (s : State) (c : BitVec 12) : (s.setCnt c).phase = s.phase := rfl
@[simp] theorem State.setCnt_kind (s : State) (c : BitVec 12) : (s.setCnt c).kind = s.kind := rfl
@[simp] theorem State.setCnt_tmr (s : State) (c : BitVec 12) : (s.setCnt c).tmr = s.tmr := rfl
@[simp] theorem State.setCnt_cmd0 (s : State) (c : BitVec 12) : (s.setCnt c).cmd0 = s.cmd0 := rfl
@[simp] theorem State.setCnt_cmd1 (s : State) (c : BitVec 12) : (s.setCnt c).cmd1 = s.cmd1 := rfl
@[simp] theorem State.setCnt_y (s : State) (c : BitVec 12) : (s.setCnt c).y = s.y := rfl
@[simp] theorem State.setCnt_cnt (s : State) (c : BitVec 12) : (s.setCnt c).cnt = c := rfl
@[simp] theorem State.setCnt_pindir (s : State) (c : BitVec 12) : (s.setCnt c).pindir = s.pindir := rfl
@[simp] theorem State.setCnt_out (s : State) (c : BitVec 12) : (s.setCnt c).out = s.out := rfl
@[simp] theorem State.setCnt_irq (s : State) (c : BitVec 12) : (s.setCnt c).irq = s.irq := rfl
@[simp] theorem State.setCnt_txq (s : State) (c : BitVec 12) : (s.setCnt c).txq = s.txq := rfl
@[simp] theorem State.setCnt_rxq (s : State) (c : BitVec 12) : (s.setCnt c).rxq = s.rxq := rfl
@[simp] theorem State.setCnt_cycle (s : State) (c : BitVec 12) : (s.setCnt c).cycle = s.cycle := rfl
@[simp] theorem State.setCnt_pending (s : State) (c : BitVec 12) : (s.setCnt c).pending = s.pending := rfl
@[simp] theorem State.setCnt_received (s : State) (c : BitVec 12) : (s.setCnt c).received = s.received := rfl
@[simp] theorem State.setCnt_trace (s : State) (c : BitVec 12) : (s.setCnt c).trace = s.trace := rfl
@[simp] theorem State.setCnt_events (s : State) (c : BitVec 12) : (s.setCnt c).events = s.events := rfl
@[simp] theorem State.setCnt_host (s : State) (c : BitVec 12) : (s.setCnt c).host = s.host := rfl
@[simp] theorem State.setCnt_env (s : State) (c : BitVec 12) : (s.setCnt c).env = s.env := rfl
@[simp] theorem State.setCnt_finished (s : State) (c : BitVec 12) : (s.setCnt c).finished = s.finished := rfl

/-! ### `setTxq` -/

@[simp] theorem State.setTxq_cfg (s : State) (q : List Word) : (s.setTxq q).cfg = s.cfg := rfl
@[simp] theorem State.setTxq_phase (s : State) (q : List Word) : (s.setTxq q).phase = s.phase := rfl
@[simp] theorem State.setTxq_kind (s : State) (q : List Word) : (s.setTxq q).kind = s.kind := rfl
@[simp] theorem State.setTxq_tmr (s : State) (q : List Word) : (s.setTxq q).tmr = s.tmr := rfl
@[simp] theorem State.setTxq_cmd0 (s : State) (q : List Word) : (s.setTxq q).cmd0 = s.cmd0 := rfl
@[simp] theorem State.setTxq_cmd1 (s : State) (q : List Word) : (s.setTxq q).cmd1 = s.cmd1 := rfl
@[simp] theorem State.setTxq_y (s : State) (q : List Word) : (s.setTxq q).y = s.y := rfl
@[simp] theorem State.setTxq_cnt (s : State) (q : List Word) : (s.setTxq q).cnt = s.cnt := rfl
@[simp] theorem State.setTxq_pindir (s : State) (q : List Word) : (s.setTxq q).pindir = s.pindir := rfl
@[simp] theorem State.setTxq_out (s : State) (q : List Word) : (s.setTxq q).out = s.out := rfl
@[simp] theorem State.setTxq_irq (s : State) (q : List Word) : (s.setTxq q).irq = s.irq := rfl
@[simp] theorem State.setTxq_txq (s : State) (q : List Word) : (s.setTxq q).txq = q := rfl
@[simp] theorem State.setTxq_rxq (s : State) (q : List Word) : (s.setTxq q).rxq = s.rxq := rfl
@[simp] theorem State.setTxq_cycle (s : State) (q : List Word) : (s.setTxq q).cycle = s.cycle := rfl
@[simp] theorem State.setTxq_pending (s : State) (q : List Word) : (s.setTxq q).pending = s.pending := rfl
@[simp] theorem State.setTxq_received (s : State) (q : List Word) : (s.setTxq q).received = s.received := rfl
@[simp] theorem State.setTxq_trace (s : State) (q : List Word) : (s.setTxq q).trace = s.trace := rfl
@[simp] theorem State.setTxq_events (s : State) (q : List Word) : (s.setTxq q).events = s.events := rfl
@[simp] theorem State.setTxq_host (s : State) (q : List Word) : (s.setTxq q).host = s.host := rfl
@[simp] theorem State.setTxq_env (s : State) (q : List Word) : (s.setTxq q).env = s.env := rfl
@[simp] theorem State.setTxq_finished (s : State) (q : List Word) : (s.setTxq q).finished = s.finished := rfl

/-! ### `setRxq` -/

@[simp] theorem State.setRxq_cfg (s : State) (q : List Word) : (s.setRxq q).cfg = s.cfg := rfl
@[simp] theorem State.setRxq_phase (s : State) (q : List Word) : (s.setRxq q).phase = s.phase := rfl
@[simp] theorem State.setRxq_kind (s : State) (q : List Word) : (s.setRxq q).kind = s.kind := rfl
@[simp] theorem State.setRxq_tmr (s : State) (q : List Word) : (s.setRxq q).tmr = s.tmr := rfl
@[simp] theorem State.setRxq_cmd0 (s : State) (q : List Word) : (s.setRxq q).cmd0 = s.cmd0 := rfl
@[simp] theorem State.setRxq_cmd1 (s : State) (q : List Word) : (s.setRxq q).cmd1 = s.cmd1 := rfl
@[simp] theorem State.setRxq_y (s : State) (q : List Word) : (s.setRxq q).y = s.y := rfl
@[simp] theorem State.setRxq_cnt (s : State) (q : List Word) : (s.setRxq q).cnt = s.cnt := rfl
@[simp] theorem State.setRxq_pindir (s : State) (q : List Word) : (s.setRxq q).pindir = s.pindir := rfl
@[simp] theorem State.setRxq_out (s : State) (q : List Word) : (s.setRxq q).out = s.out := rfl
@[simp] theorem State.setRxq_irq (s : State) (q : List Word) : (s.setRxq q).irq = s.irq := rfl
@[simp] theorem State.setRxq_txq (s : State) (q : List Word) : (s.setRxq q).txq = s.txq := rfl
@[simp] theorem State.setRxq_rxq (s : State) (q : List Word) : (s.setRxq q).rxq = q := rfl
@[simp] theorem State.setRxq_cycle (s : State) (q : List Word) : (s.setRxq q).cycle = s.cycle := rfl
@[simp] theorem State.setRxq_pending (s : State) (q : List Word) : (s.setRxq q).pending = s.pending := rfl
@[simp] theorem State.setRxq_received (s : State) (q : List Word) : (s.setRxq q).received = s.received := rfl
@[simp] theorem State.setRxq_trace (s : State) (q : List Word) : (s.setRxq q).trace = s.trace := rfl
@[simp] theorem State.setRxq_events (s : State) (q : List Word) : (s.setRxq q).events = s.events := rfl
@[simp] theorem State.setRxq_host (s : State) (q : List Word) : (s.setRxq q).host = s.host := rfl
@[simp] theorem State.setRxq_env (s : State) (q : List Word) : (s.setRxq q).env = s.env := rfl
@[simp] theorem State.setRxq_finished (s : State) (q : List Word) : (s.setRxq q).finished = s.finished := rfl

/-! ### `raiseIrq` -/

@[simp] theorem State.raiseIrq_cfg (s : State) : (s.raiseIrq).cfg = s.cfg := rfl
@[simp] theorem State.raiseIrq_phase (s : State) : (s.raiseIrq).phase = s.phase := rfl
@[simp] theorem State.raiseIrq_kind (s : State) : (s.raiseIrq).kind = s.kind := rfl
@[simp] theorem State.raiseIrq_tmr (s : State) : (s.raiseIrq).tmr = s.tmr := rfl
@[simp] theorem State.raiseIrq_cmd0 (s : State) : (s.raiseIrq).cmd0 = s.cmd0 := rfl
@[simp] theorem State.raiseIrq_cmd1 (s : State) : (s.raiseIrq).cmd1 = s.cmd1 := rfl
@[simp] theorem State.raiseIrq_y (s : State) : (s.raiseIrq).y = s.y := rfl
@[simp] theorem State.raiseIrq_cnt (s : State) : (s.raiseIrq).cnt = s.cnt := rfl
@[simp] theorem State.raiseIrq_pindir (s : State) : (s.raiseIrq).pindir = s.pindir := rfl
@[simp] theorem State.raiseIrq_out (s : State) : (s.raiseIrq).out = s.out := rfl
@[simp] theorem State.raiseIrq_irq (s : State) : (s.raiseIrq).irq = true := rfl
@[simp] theorem State.raiseIrq_txq (s : State) : (s.raiseIrq).txq = s.txq := rfl
@[simp] theorem State.raiseIrq_rxq (s : State) : (s.raiseIrq).rxq = s.rxq := rfl
@[simp] theorem State.raiseIrq_cycle (s : State) : (s.raiseIrq).cycle = s.cycle := rfl
@[simp] theorem State.raiseIrq_pending (s : State) : (s.raiseIrq).pending = s.pending := rfl
@[simp] theorem State.raiseIrq_received (s : State) : (s.raiseIrq).received = s.received := rfl
@[simp] theorem State.raiseIrq_trace (s : State) : (s.raiseIrq).trace = s.trace := rfl
@[simp] theorem State.raiseIrq_events (s : State) : (s.raiseIrq).events = s.events := rfl
@[simp] theorem State.raiseIrq_host (s : State) : (s.raiseIrq).host = s.host := rfl
@[simp] theorem State.raiseIrq_env (s : State) : (s.raiseIrq).env = s.env := rfl
@[simp] theorem State.raiseIrq_finished (s : State) : (s.raiseIrq).finished = s.finished := rfl

/-! ### `clearIrq` -/

@[simp] theorem State.clearIrq_cfg (s : State) : (s.clearIrq).cfg = s.cfg := rfl
@[simp] theorem State.clearIrq_phase (s : State) : (s.clearIrq).phase = s.phase := rfl
@[simp] theorem State.clearIrq_kind (s : State) : (s.clearIrq).kind = s.kind := rfl
@[simp] theorem State.clearIrq_tmr (s : State) : (s.clearIrq).tmr = s.tmr := rfl
@[simp] theorem State.clearIrq_cmd0 (s : State) : (s.clearIrq).cmd0 = s.cmd0 := rfl
@[simp] theorem State.clearIrq_cmd1 (s : State) : (s.clearIrq).cmd1 = s.cmd1 := rfl
@[simp] theorem State.clearIrq_y (s : State) : (s.clearIrq).y = s.y := rfl
@[simp] theorem State.clearIrq_cnt (s : State) : (s.clearIrq).cnt = s.cnt := rfl
@[simp] theorem State.clearIrq_pindir (s : State) : (s.clearIrq).pindir = s.pindir := rfl
@[simp] theorem State.clearIrq_out (s : State) : (s.clearIrq).out = s.out := rfl
@[simp] theorem State.clearIrq_irq (s : State) : (s.clearIrq).irq = false := rfl
@[simp] theorem State.clearIrq_txq (s : State) : (s.clearIrq).txq = s.txq := rfl
@[simp] theorem State.clearIrq_rxq (s : State) : (s.clearIrq).rxq = s.rxq := rfl
@[simp] theorem State.clearIrq_cycle (s : State) : (s.clearIrq).cycle = s.cycle := rfl
@[simp] theorem State.clearIrq_pending (s : State) : (s.clearIrq).pending = s.pending := rfl
@[simp] theorem State.clearIrq_received (s : State) : (s.clearIrq).received = s.received := rfl
@[simp] theorem State.clearIrq_trace (s : State) : (s.clearIrq).trace = s.trace := rfl
@[simp] theorem State.clearIrq_events (s : State) : (s.clearIrq).events = s.events := rfl
@[simp] theorem State.clearIrq_host (s : State) : (s.clearIrq).host = s.host := rfl
@[simp] theorem State.clearIrq_env (s : State) : (s.clearIrq).env = s.env := rfl
@[simp] theorem State.clearIrq_finished (s : State) : (s.clearIrq).finished = s.finished := rfl

/-- A stall records its event and changes nothing else. -/
theorem State.stalled_eq (s : State) (r : StallReason) : s.stalled r = s.record (.stall r) := rfl

end Sys2Proof.Machine
end

