-- ==== Sys2Proof/Laws/Ops.lean ====
section
/-! SUPPORT. For each shared operation of the state machine, one lemma that says everything it can do. -/

namespace Sys2Proof.Machine

/-! ### Counters -/

/-- `loop_back` (40_dispatch R150). -/
theorem loopBack_cases (first exit : Phase) (s : State) :
    (s.cnt = 0 ∧ loopBack first exit s = s.goto exit) ∨
    (s.cnt ≠ 0 ∧ loopBack first exit s = (s.setCnt (s.cnt - 1)).goto first) := by
  unfold loopBack
  split <;> simp_all

/-- Decrementing a counter that is not 0. -/
theorem cnt_pred_toNat (c : BitVec 12) (h : c ≠ 0) : (c - 1).toNat + 1 = c.toNat := by
  bv_omega

/-- The start of a timed phase pair (40_dispatch R151). -/
theorem startTimed_cases (t : Nat) (wait : Phase) (next : State → State) (s : State) :
    (t = 1 ∧ startTimed t wait next s = next (s.setTmr 0)) ∨
    (t ≠ 1 ∧ startTimed t wait next s = (s.setTmr (t - 1)).goto wait) := by
  unfold startTimed
  by_cases h : t = 1 <;> simp [h]

/-- The start of a timed phase pair whose successor is a plain phase. -/
theorem startTimed_goto (t : Nat) (wait next : Phase) (s : State) :
    startTimed t wait (fun u => u.goto next) s = (s.setTmr (t - 1)).goto (if t = 1 then next else wait) := by
  unfold startTimed
  by_cases h : t = 1 <;> simp [h]

/-- A waiting cycle whose successor is a plain phase. -/
theorem waitTimed_goto (wait next : Phase) (s : State) :
    waitTimed wait (fun u => u.goto next) s = (s.setTmr (s.tmr - 1)).goto (if s.tmr ≤ 1 then next else wait) := by
  unfold waitTimed
  by_cases h : s.tmr ≤ 1
  · simp [h, show s.tmr - 1 = 0 by omega]
  · simp [h, show ¬ s.tmr - 1 = 0 by omega]

/-- A waiting cycle (40_dispatch R151). -/
theorem waitTimed_cases (wait : Phase) (next : State → State) (s : State) :
    (s.tmr ≤ 1 ∧ waitTimed wait next s = next (s.setTmr 0)) ∨
    (1 < s.tmr ∧ waitTimed wait next s = (s.setTmr (s.tmr - 1)).goto wait) := by
  unfold waitTimed
  by_cases h : s.tmr ≤ 1
  · left; simp [h, show s.tmr - 1 = 0 by omega]
  · right; simp [show ¬ s.tmr - 1 = 0 by omega]; omega

/-! ### The pulses -/

/-- The placing part of `W_PLACE` writes `web` and the bus (41_pin_commands R176). -/
theorem getLsbD_place (o : Pins) (p : Word) (i : Nat) :
    (setPayload (setBit o pinWeb false) p).getLsbD i =
      if i < 10 then p.getLsbD i else if i = 13 then false else o.getLsbD i := by
  rw [getLsbD_setPayload, getLsbD_setBit _ _ _ _ (by decide)]
  rfl

/-- `W_PLACE` with a popped payload stalls on an empty queue and places the head otherwise (41_pin_commands R176). -/
theorem placeFromTxq_cases (s : State) :
    (s.txq = [] ∧ placeFromTxq s = s.record (.stall .txEmpty)) ∨
    (∃ (p : Word) (rest : List Word), s.txq = p :: rest ∧
      placeFromTxq s = placePayload p ((s.setTxq rest).record (.pop p))) := by
  unfold placeFromTxq
  split <;> simp_all [State.stalled]

/-- `R_SAMPLE` stalls on a full queue and samples otherwise (42_transfer_commands R203). -/
theorem readSample_cases (s : State) :
    (¬ s.rxq.length < s.cfg.rxDepth ∧ readSample s = s.record (.stall .rxFull)) ∨
    (s.rxq.length < s.cfg.rxDepth ∧ readSample s =
      startTimed s.cfg.tHold .rHigh afterRead
        (((s.setRxq (s.rxq ++ [d8Word s.sampledByte])).record (.readSample s.sampledByte)).setOut
          (setBit s.out pinReb true))) := by
  unfold readSample
  split <;> simp_all [State.stalled]

/-- `WAIT_RBB` ends on a pin that reads 1 and stays otherwise (43_sync_commands R226). -/
theorem pollReady_cases (s : State) :
    (s.level pinRbb = true ∧ pollReady s = (s.record .rbbReady).goto .setupA) ∨
    (s.level pinRbb = false ∧ pollReady s = s.goto .waitRbb) := by
  unfold pollReady
  split <;> simp_all

/-! ### SETUP (40_dispatch R144, R145) -/

@[simp] theorem dispatch_cfg (k : Kind) (id : BitVec 4) (tc : BitVec 12) (pd : BitVec 16) (c1 : Word) (s : State) :
    (dispatch k id tc pd c1 s).cfg = s.cfg := rfl
@[simp] theorem dispatch_phase (k : Kind) (id : BitVec 4) (tc : BitVec 12) (pd : BitVec 16) (c1 : Word) (s : State) :
    (dispatch k id tc pd c1 s).phase = s.phase := rfl
@[simp] theorem dispatch_kind (k : Kind) (id : BitVec 4) (tc : BitVec 12) (pd : BitVec 16) (c1 : Word) (s : State) :
    (dispatch k id tc pd c1 s).kind = k := rfl
@[simp] theorem dispatch_tmr (k : Kind) (id : BitVec 4) (tc : BitVec 12) (pd : BitVec 16) (c1 : Word) (s : State) :
    (dispatch k id tc pd c1 s).tmr = s.tmr := rfl
@[simp] theorem dispatch_cmd0 (k : Kind) (id : BitVec 4) (tc : BitVec 12) (pd : BitVec 16) (c1 : Word) (s : State) :
    (dispatch k id tc pd c1 s).cmd0 = s.cmd0 := rfl
@[simp] theorem dispatch_cmd1 (k : Kind) (id : BitVec 4) (tc : BitVec 12) (pd : BitVec 16) (c1 : Word) (s : State) :
    (dispatch k id tc pd c1 s).cmd1 = c1 := rfl
@[simp] theorem dispatch_y (k : Kind) (id : BitVec 4) (tc : BitVec 12) (pd : BitVec 16) (c1 : Word) (s : State) :
    (dispatch k id tc pd c1 s).y = id := rfl
@[simp] theorem dispatch_cnt (k : Kind) (id : BitVec 4) (tc : BitVec 12) (pd : BitVec 16) (c1 : Word) (s : State) :
    (dispatch k id tc pd c1 s).cnt = tc := rfl
@[simp] theorem dispatch_pindir (k : Kind) (id : BitVec 4) (tc : BitVec 12) (pd : BitVec 16) (c1 : Word) (s : State) :
    (dispatch k id tc pd c1 s).pindir = pd := rfl
@[simp] theorem dispatch_out (k : Kind) (id : BitVec 4) (tc : BitVec 12) (pd : BitVec 16) (c1 : Word) (s : State) :
    (dispatch k id tc pd c1 s).out = setBit s.out pinWpb (wpbLevel s.cfg.wpbTable k) := rfl
@[simp] theorem dispatch_irq (k : Kind) (id : BitVec 4) (tc : BitVec 12) (pd : BitVec 16) (c1 : Word) (s : State) :
    (dispatch k id tc pd c1 s).irq = s.irq := rfl
@[simp] theorem dispatch_txq (k : Kind) (id : BitVec 4) (tc : BitVec 12) (pd : BitVec 16) (c1 : Word) (s : State) :
    (dispatch k id tc pd c1 s).txq = s.txq := rfl
@[simp] theorem dispatch_rxq (k : Kind) (id : BitVec 4) (tc : BitVec 12) (pd : BitVec 16) (c1 : Word) (s : State) :
    (dispatch k id tc pd c1 s).rxq = s.rxq := rfl
@[simp] theorem dispatch_cycle (k : Kind) (id : BitVec 4) (tc : BitVec 12) (pd : BitVec 16) (c1 : Word) (s : State) :
    (dispatch k id tc pd c1 s).cycle = s.cycle := rfl
@[simp] theorem dispatch_pending (k : Kind) (id : BitVec 4) (tc : BitVec 12) (pd : BitVec 16) (c1 : Word) (s : State) :
    (dispatch k id tc pd c1 s).pending = s.pending := rfl
@[simp] theorem dispatch_received (k : Kind) (id : BitVec 4) (tc : BitVec 12) (pd : BitVec 16) (c1 : Word) (s : State) :
    (dispatch k id tc pd c1 s).received = s.received := rfl
@[simp] theorem dispatch_trace (k : Kind) (id : BitVec 4) (tc : BitVec 12) (pd : BitVec 16) (c1 : Word) (s : State) :
    (dispatch k id tc pd c1 s).trace = s.trace := rfl
@[simp] theorem dispatch_events (k : Kind) (id : BitVec 4) (tc : BitVec 12) (pd : BitVec 16) (c1 : Word) (s : State) :
    (dispatch k id tc pd c1 s).events = s.events ++ [.dispatch k id] := rfl
@[simp] theorem dispatch_host (k : Kind) (id : BitVec 4) (tc : BitVec 12) (pd : BitVec 16) (c1 : Word) (s : State) :
    (dispatch k id tc pd c1 s).host = s.host := rfl
@[simp] theorem dispatch_env (k : Kind) (id : BitVec 4) (tc : BitVec 12) (pd : BitVec 16) (c1 : Word) (s : State) :
    (dispatch k id tc pd c1 s).env = s.env := rfl
@[simp] theorem dispatch_finished (k : Kind) (id : BitVec 4) (tc : BitVec 12) (pd : BitVec 16) (c1 : Word) (s : State) :
    (dispatch k id tc pd c1 s).finished = s.finished := rfl
@[simp] theorem loadCmd0_cfg (w : Word) (rest : List Word) (s : State) :
    (loadCmd0 w rest s).cfg = s.cfg := rfl
@[simp] theorem loadCmd0_phase (w : Word) (rest : List Word) (s : State) :
    (loadCmd0 w rest s).phase = .setupB := rfl
@[simp] theorem loadCmd0_kind (w : Word) (rest : List Word) (s : State) :
    (loadCmd0 w rest s).kind = s.kind := rfl
@[simp] theorem loadCmd0_tmr (w : Word) (rest : List Word) (s : State) :
    (loadCmd0 w rest s).tmr = s.tmr := rfl
@[simp] theorem loadCmd0_cmd0 (w : Word) (rest : List Word) (s : State) :
    (loadCmd0 w rest s).cmd0 = w := rfl
@[simp] theorem loadCmd0_cmd1 (w : Word) (rest : List Word) (s : State) :
    (loadCmd0 w rest s).cmd1 = s.cmd1 := rfl
@[simp] theorem loadCmd0_y (w : Word) (rest : List Word) (s : State) :
    (loadCmd0 w rest s).y = s.y := rfl
@[simp] theorem loadCmd0_cnt (w : Word) (rest : List Word) (s : State) :
    (loadCmd0 w rest s).cnt = s.cnt := rfl
@[simp] theorem loadCmd0_pindir (w : Word) (rest : List Word) (s : State) :
    (loadCmd0 w rest s).pindir = s.pindir := rfl
@[simp] theorem loadCmd0_out (w : Word) (rest : List Word) (s : State) :
    (loadCmd0 w rest s).out = s.out := rfl
@[simp] theorem loadCmd0_irq (w : Word) (rest : List Word) (s : State) :
    (loadCmd0 w rest s).irq = s.irq := rfl
@[simp] theorem loadCmd0_txq (w : Word) (rest : List Word) (s : State) :
    (loadCmd0 w rest s).txq = rest := rfl
@[simp] theorem loadCmd0_rxq (w : Word) (rest : List Word) (s : State) :
    (loadCmd0 w rest s).rxq = s.rxq := rfl
@[simp] theorem loadCmd0_cycle (w : Word) (rest : List Word) (s : State) :
    (loadCmd0 w rest s).cycle = s.cycle := rfl
@[simp] theorem loadCmd0_pending (w : Word) (rest : List Word) (s : State) :
    (loadCmd0 w rest s).pending = s.pending := rfl
@[simp] theorem loadCmd0_received (w : Word) (rest : List Word) (s : State) :
    (loadCmd0 w rest s).received = s.received := rfl
@[simp] theorem loadCmd0_trace (w : Word) (rest : List Word) (s : State) :
    (loadCmd0 w rest s).trace = s.trace := rfl
@[simp] theorem loadCmd0_events (w : Word) (rest : List Word) (s : State) :
    (loadCmd0 w rest s).events = s.events ++ [.pop w] := rfl
@[simp] theorem loadCmd0_host (w : Word) (rest : List Word) (s : State) :
    (loadCmd0 w rest s).host = s.host := rfl
@[simp] theorem loadCmd0_env (w : Word) (rest : List Word) (s : State) :
    (loadCmd0 w rest s).env = s.env := rfl
@[simp] theorem loadCmd0_finished (w : Word) (rest : List Word) (s : State) :
    (loadCmd0 w rest s).finished = s.finished := rfl

/-- What a cycle fetches: a stall with nothing popped, a stall with the first word kept, a command with its words popped,
or the command in flight (40_dispatch R144). -/
theorem fetch_cases (s : State) :
    (s.phase = .setupA ∧ s.txq = [] ∧ fetch s = .stalled (s.record (.stall .txEmpty))) ∨
    (∃ w : Word, s.phase = .setupA ∧ s.txq = [w] ∧ fetch s = .stalled ((loadCmd0 w [] s).record (.stall .txEmpty))) ∨
    (∃ (w v : Word) (rest : List Word), s.phase = .setupA ∧ s.txq = w :: v :: rest ∧
      fetch s = .command (decodeHead s.cfg.id5Mode w v)
        (((loadCmd0 w (v :: rest) s).setTxq rest).record (.pop v))) ∨
    (s.phase = .setupB ∧ s.txq = [] ∧ fetch s = .stalled (s.record (.stall .txEmpty))) ∨
    (∃ (v : Word) (rest : List Word), s.phase = .setupB ∧ s.txq = v :: rest ∧
      fetch s = .command (decodeHead s.cfg.id5Mode s.cmd0 v) ((s.setTxq rest).record (.pop v))) ∨
    (s.phase ≠ .setupA ∧ s.phase ≠ .setupB ∧ fetch s = .command s.inFlight s) := by
  unfold fetch
  split
  · next hp =>
    split
    · next ht => exact .inl ⟨hp, ht, rfl⟩
    · next w rest ht =>
      cases rest with
      | nil => exact .inr (.inl ⟨w, hp, ht, rfl⟩)
      | cons v rest => exact .inr (.inr (.inl ⟨w, v, rest, hp, ht, rfl⟩))
  · next hp =>
    unfold fetchCmd1
    split
    · next ht => exact .inr (.inr (.inr (.inl ⟨hp, ht, rfl⟩)))
    · next v rest ht => exact .inr (.inr (.inr (.inr (.inl ⟨v, rest, hp, ht, rfl⟩))))
  all_goals
    next hp => exact .inr (.inr (.inr (.inr (.inr ⟨by simp [hp], by simp [hp], rfl⟩))))

end Sys2Proof.Machine
end

