-- ==== Sys2Proof/Laws/Cycle.lean ====
section
/-! SUPPORT. What no cycle of the state machine writes: everything that is the host's, the driver's or the
configuration's (10_state R34, R44; 20_memory R75). -/

namespace Sys2Proof.Machine

/-- The command in flight has the kind that `KIND` says. -/
theorem kind_inFlight (s : State) : s.inFlight.kind = s.kind := by
  unfold State.inFlight
  cases hk : s.kind <;> try rfl
  simp only
  by_cases h1 : cmdIdField s.cmd0 = 5
  · rw [if_pos h1]
    rfl
  · rw [if_neg h1]
    by_cases h2 : (cmdIdField s.cmd0).getLsbD 3 = true
    · rw [if_pos h2]
      rfl
    · rw [if_neg h2]
      rfl

/-- The fields that no cycle of the state machine writes. -/
structure OutsideKept (s t : State) : Prop where
  cfg : t.cfg = s.cfg
  cycle : t.cycle = s.cycle
  pending : t.pending = s.pending
  received : t.received = s.received
  trace : t.trace = s.trace
  host : t.host = s.host
  env : t.env = s.env
  finished : t.finished = s.finished

theorem OutsideKept.refl (s : State) : OutsideKept s s :=
  ⟨rfl, rfl, rfl, rfl, rfl, rfl, rfl, rfl⟩

theorem OutsideKept.trans {s t u : State} (h : OutsideKept s t) (k : OutsideKept t u) : OutsideKept s u :=
  ⟨k.cfg.trans h.cfg, k.cycle.trans h.cycle, k.pending.trans h.pending, k.received.trans h.received,
    k.trace.trans h.trace, k.host.trans h.host, k.env.trans h.env, k.finished.trans h.finished⟩

theorem OutsideKept.after {s t u : State} (k : OutsideKept t u) (h : OutsideKept s t) : OutsideKept s u :=
  h.trans k

theorem outsideKept_loopBack (first exit : Phase) (s : State) : OutsideKept s (loopBack first exit s) := by
  rcases loopBack_cases first exit s with ⟨-, h⟩ | ⟨-, h⟩ <;> rw [h] <;> exact ⟨rfl, rfl, rfl, rfl, rfl, rfl, rfl, rfl⟩

theorem outsideKept_startTimed (t : Nat) (wait : Phase) (next : State → State) (s : State)
    (hn : ∀ u : State, OutsideKept u (next u)) : OutsideKept s (startTimed t wait next s) := by
  rcases startTimed_cases t wait next s with ⟨-, h⟩ | ⟨-, h⟩ <;> rw [h]
  · exact (hn _).after ⟨rfl, rfl, rfl, rfl, rfl, rfl, rfl, rfl⟩
  · exact ⟨rfl, rfl, rfl, rfl, rfl, rfl, rfl, rfl⟩

theorem outsideKept_waitTimed (wait : Phase) (next : State → State) (s : State)
    (hn : ∀ u : State, OutsideKept u (next u)) : OutsideKept s (waitTimed wait next s) := by
  rcases waitTimed_cases wait next s with ⟨-, h⟩ | ⟨-, h⟩ <;> rw [h]
  · exact (hn _).after ⟨rfl, rfl, rfl, rfl, rfl, rfl, rfl, rfl⟩
  · exact ⟨rfl, rfl, rfl, rfl, rfl, rfl, rfl, rfl⟩

theorem outsideKept_goto (p : Phase) (s : State) : OutsideKept s (s.goto p) :=
  ⟨rfl, rfl, rfl, rfl, rfl, rfl, rfl, rfl⟩

theorem outsideKept_placePayload (p : Word) (s : State) : OutsideKept s (placePayload p s) :=
  (outsideKept_startTimed _ _ _ _ fun u => outsideKept_goto .wRise u).after
    ⟨rfl, rfl, rfl, rfl, rfl, rfl, rfl, rfl⟩

theorem outsideKept_placeFromTxq (s : State) : OutsideKept s (placeFromTxq s) := by
  rcases placeFromTxq_cases s with ⟨-, h⟩ | ⟨p, rest, -, h⟩ <;> rw [h]
  · exact ⟨rfl, rfl, rfl, rfl, rfl, rfl, rfl, rfl⟩
  · exact (outsideKept_placePayload p _).after ⟨rfl, rfl, rfl, rfl, rfl, rfl, rfl, rfl⟩

theorem outsideKept_latchPulse (after : State → State) (s : State) (ha : ∀ u : State, OutsideKept u (after u)) :
    OutsideKept s (latchPulse after s) :=
  (outsideKept_startTimed _ _ _ _ ha).after ⟨rfl, rfl, rfl, rfl, rfl, rfl, rfl, rfl⟩

theorem outsideKept_readSample (s : State) : OutsideKept s (readSample s) := by
  rcases readSample_cases s with ⟨-, h⟩ | ⟨-, h⟩ <;> rw [h]
  · exact ⟨rfl, rfl, rfl, rfl, rfl, rfl, rfl, rfl⟩
  · exact (outsideKept_startTimed _ _ _ _ fun u => outsideKept_loopBack _ _ u).after
      ⟨rfl, rfl, rfl, rfl, rfl, rfl, rfl, rfl⟩

theorem outsideKept_pollReady (s : State) : OutsideKept s (pollReady s) := by
  rcases pollReady_cases s with ⟨-, h⟩ | ⟨-, h⟩ <;> rw [h] <;> exact ⟨rfl, rfl, rfl, rfl, rfl, rfl, rfl, rfl⟩

theorem outsideKept_waitRbbCycle (id : BitVec 4) (tc : BitVec 12) (pd : BitVec 16) (c1 : Word) (s t : State)
    (h : waitRbbCycle id tc pd c1 s = .next t) : OutsideKept s t := by
  unfold waitRbbCycle at h
  split at h <;> cases h
  · exact ⟨rfl, rfl, rfl, rfl, rfl, rfl, rfl, rfl⟩
  · exact ⟨rfl, rfl, rfl, rfl, rfl, rfl, rfl, rfl⟩
  · exact outsideKept_pollReady s

/-- No cycle of a command writes a field outside the state machine. -/
theorem outsideKept_exec (i : Instr) (s t : State) (h : exec i s = .next t) : OutsideKept s t := by
  cases i with
  | bitbang tc pd c1 =>
    simp only [exec, execBitbang] at h
    split at h <;> cases h <;> exact ⟨rfl, rfl, rfl, rfl, rfl, rfl, rfl, rfl⟩
  | cmdLatch tc pd c1 =>
    simp only [exec, execCmdLatch] at h
    split at h <;> cases h
    · exact ⟨rfl, rfl, rfl, rfl, rfl, rfl, rfl, rfl⟩
    · exact ⟨rfl, rfl, rfl, rfl, rfl, rfl, rfl, rfl⟩
    · exact outsideKept_placePayload _ _
    · exact outsideKept_waitTimed _ _ _ fun u => outsideKept_goto _ u
    · exact outsideKept_latchPulse _ _ fun u => outsideKept_goto _ u
    · exact outsideKept_waitTimed _ _ _ fun u => outsideKept_goto _ u
    · exact ⟨rfl, rfl, rfl, rfl, rfl, rfl, rfl, rfl⟩
  | addrLatch tc pd c1 =>
    simp only [exec, execAddrLatch] at h
    split at h <;> cases h
    · exact ⟨rfl, rfl, rfl, rfl, rfl, rfl, rfl, rfl⟩
    · exact ⟨rfl, rfl, rfl, rfl, rfl, rfl, rfl, rfl⟩
    · exact outsideKept_placeFromTxq _
    · exact outsideKept_waitTimed _ _ _ fun u => outsideKept_goto _ u
    · exact outsideKept_latchPulse _ _ fun u => outsideKept_loopBack _ _ u
    · exact outsideKept_waitTimed _ _ _ fun u => outsideKept_loopBack _ _ u
    · exact ⟨rfl, rfl, rfl, rfl, rfl, rfl, rfl, rfl⟩
  | dataOutput tc pd c1 =>
    simp only [exec, execDataOutput] at h
    split at h <;> cases h
    · exact ⟨rfl, rfl, rfl, rfl, rfl, rfl, rfl, rfl⟩
    · exact ⟨rfl, rfl, rfl, rfl, rfl, rfl, rfl, rfl⟩
    · exact (outsideKept_startTimed _ _ _ _ fun u => outsideKept_goto .rSample u).after
        ⟨rfl, rfl, rfl, rfl, rfl, rfl, rfl, rfl⟩
    · exact outsideKept_waitTimed _ _ _ fun u => outsideKept_goto _ u
    · exact outsideKept_readSample _
    · exact outsideKept_waitTimed _ _ _ fun u => outsideKept_loopBack _ _ u
  | dataInput tc pd c1 =>
    simp only [exec, execDataInput] at h
    split at h <;> cases h
    · exact ⟨rfl, rfl, rfl, rfl, rfl, rfl, rfl, rfl⟩
    · exact ⟨rfl, rfl, rfl, rfl, rfl, rfl, rfl, rfl⟩
    · exact outsideKept_placeFromTxq _
    · exact outsideKept_waitTimed _ _ _ fun u => outsideKept_goto _ u
    · exact outsideKept_latchPulse _ _ fun u => outsideKept_loopBack _ _ u
    · exact outsideKept_waitTimed _ _ _ fun u => outsideKept_loopBack _ _ u
  | signal tc pd c1 =>
    simp only [exec, execSignal] at h
    split at h <;> cases h <;> exact ⟨rfl, rfl, rfl, rfl, rfl, rfl, rfl, rfl⟩
  | waitRbbFive tc pd c1 => exact outsideKept_waitRbbCycle _ _ _ _ _ _ h
  | waitRbbSixSeven low tc pd c1 => exact outsideKept_waitRbbCycle _ _ _ _ _ _ h
  | waitRbbHigh low tc pd c1 => exact outsideKept_waitRbbCycle _ _ _ _ _ _ h

/-- No cycle of the state machine writes a field outside it. -/
theorem outsideKept_machineCycle (s t : State) (h : machineCycle s = .next t) : OutsideKept s t := by
  unfold machineCycle at h
  rcases fetch_cases s with ⟨-, -, hf⟩ | ⟨w, -, -, hf⟩ | ⟨w, v, rest, -, -, hf⟩ | ⟨-, -, hf⟩ | ⟨v, rest, -, -, hf⟩ |
    ⟨-, -, hf⟩ <;> rw [hf] at h
  · cases h
    exact ⟨rfl, rfl, rfl, rfl, rfl, rfl, rfl, rfl⟩
  · cases h
    exact ⟨rfl, rfl, rfl, rfl, rfl, rfl, rfl, rfl⟩
  · exact (outsideKept_exec _ _ _ h).after ⟨rfl, rfl, rfl, rfl, rfl, rfl, rfl, rfl⟩
  · cases h
    exact ⟨rfl, rfl, rfl, rfl, rfl, rfl, rfl, rfl⟩
  · exact (outsideKept_exec _ _ _ h).after ⟨rfl, rfl, rfl, rfl, rfl, rfl, rfl, rfl⟩
  · exact outsideKept_exec _ _ _ h

end Sys2Proof.Machine
end

