-- ==== Sys2Proof/Laws/Encoding.lean ====
section
/-! SUPPORT. The fields of an assembled cmd_0 word, a word from its fields, and the bytes of words. -/

namespace Sys2Proof

/-- The bits of an assembled cmd_0 word (30_encoding R101). -/
theorem getLsbD_cmd0Word (id : BitVec 4) (tc : BitVec 12) (pd : BitVec 16) (j : Nat) :
    (cmd0Word id tc pd).getLsbD j =
      if j < 16 then pd.getLsbD j else if j < 28 then tc.getLsbD (j - 16) else id.getLsbD (j - 28) := by
  unfold cmd0Word
  rw [BitVec.getLsbD_append, BitVec.getLsbD_append]
  by_cases h : j < 16
  · simp [h]
  · simp only [h, if_false]
    by_cases h2 : j < 28
    · simp [h2, show j - 16 < 12 by omega]
    · simp [h2, show ¬ j - 16 < 12 by omega, show j - 16 - 12 = j - 28 by omega]

/-- `cmd_id` of an assembled word. -/
theorem cmdIdField_cmd0Word (id : BitVec 4) (tc : BitVec 12) (pd : BitVec 16) :
    cmdIdField (cmd0Word id tc pd) = id := by
  apply BitVec.eq_of_getLsbD_eq
  intro j hj
  rw [cmdIdField, BitVec.getLsbD_extractLsb', getLsbD_cmd0Word]
  simp [hj, show ¬ 28 + j < 16 by omega, show 28 + j - 28 = j by omega]

/-- `transfer_count` of an assembled word. -/
theorem transferCountField_cmd0Word (id : BitVec 4) (tc : BitVec 12) (pd : BitVec 16) :
    transferCountField (cmd0Word id tc pd) = tc := by
  apply BitVec.eq_of_getLsbD_eq
  intro j hj
  rw [transferCountField, BitVec.getLsbD_extractLsb', getLsbD_cmd0Word]
  simp [hj, show ¬ 16 + j < 16 by omega, show 16 + j < 28 by omega, show 16 + j - 16 = j by omega]

/-- `pin_directions` of an assembled word. -/
theorem pinDirectionsField_cmd0Word (id : BitVec 4) (tc : BitVec 12) (pd : BitVec 16) :
    pinDirectionsField (cmd0Word id tc pd) = pd := by
  apply BitVec.eq_of_getLsbD_eq
  intro j hj
  rw [pinDirectionsField, BitVec.getLsbD_extractLsb', getLsbD_cmd0Word]
  simp [hj]

/-- A word is the assembly of its three fields: they cover all 32 bits (30_encoding R91). -/
theorem cmd0Word_fields (w : Word) : cmd0Word (cmdIdField w) (transferCountField w) (pinDirectionsField w) = w := by
  apply BitVec.eq_of_getLsbD_eq
  intro j hj
  rw [getLsbD_cmd0Word, cmdIdField, transferCountField, pinDirectionsField, BitVec.getLsbD_extractLsb',
    BitVec.getLsbD_extractLsb', BitVec.getLsbD_extractLsb']
  by_cases h1 : j < 16
  · simp [h1]
  · by_cases h2 : j < 28
    · simp [h1, h2, show j - 16 < 12 by omega, show 16 + (j - 16) = j by omega]
    · simp [h1, h2, show j - 28 < 4 by omega, show 28 + (j - 28) = j by omega]

/-! ## Bytes (20_memory R61) -/

@[simp] theorem bytesOfWords_nil : bytesOfWords [] = [] := rfl

@[simp] theorem bytesOfWords_cons (w : Word) (ws : List Word) :
    bytesOfWords (w :: ws) = bytesOfWord w ++ bytesOfWords ws := rfl

@[simp] theorem bytesOfWord_length (w : Word) : (bytesOfWord w).length = 4 := rfl

/-- A word is its four bytes, the first the least significant. -/
theorem word_of_bytes (w : Word) :
    w.extractLsb' 24 8 ++ w.extractLsb' 16 8 ++ w.extractLsb' 8 8 ++ w.extractLsb' 0 8 = w := by
  apply BitVec.eq_of_getLsbD_eq
  intro j hj
  simp only [BitVec.getLsbD_append, BitVec.getLsbD_extractLsb']
  interval_cases j <;> rfl

/-- Reading back the four bytes of a word gives the word, whatever follows. -/
theorem wordsOfBytes_bytesOfWord (w : Word) (bs : List Byte) :
    wordsOfBytes (bytesOfWord w ++ bs) = w :: wordsOfBytes bs :=
  congrArg (· :: wordsOfBytes bs) (word_of_bytes w)

end Sys2Proof
end

