-- ==== Sys2Proof/Laws/Frame.lean ====
section
/-! SUPPORT. A frame, field by field. -/

namespace Sys2Proof.Machine

/-- A frame says of each field that is not listed that it is the same. -/
theorem frame_iff (ch : List Reg) (s t : State) :
    Frame ch s t ↔
      (.cfg ∉ ch → t.cfg = s.cfg) ∧ (.phase ∉ ch → t.phase = s.phase) ∧ (.kind ∉ ch → t.kind = s.kind) ∧
      (.tmr ∉ ch → t.tmr = s.tmr) ∧ (.cmd0 ∉ ch → t.cmd0 = s.cmd0) ∧ (.cmd1 ∉ ch → t.cmd1 = s.cmd1) ∧
      (.y ∉ ch → t.y = s.y) ∧ (.cnt ∉ ch → t.cnt = s.cnt) ∧ (.pindir ∉ ch → t.pindir = s.pindir) ∧
      (.out ∉ ch → t.out = s.out) ∧ (.irq ∉ ch → t.irq = s.irq) ∧ (.txq ∉ ch → t.txq = s.txq) ∧
      (.rxq ∉ ch → t.rxq = s.rxq) ∧ (.cycle ∉ ch → t.cycle = s.cycle) ∧ (.pending ∉ ch → t.pending = s.pending) ∧
      (.received ∉ ch → t.received = s.received) ∧ (.trace ∉ ch → t.trace = s.trace) ∧
      (.events ∉ ch → t.events = s.events) ∧ (.host ∉ ch → t.host = s.host) ∧ (.env ∉ ch → t.env = s.env) ∧
      (.finished ∉ ch → t.finished = s.finished) := by
  constructor
  · intro h
    exact ⟨h .cfg, h .phase, h .kind, h .tmr, h .cmd0, h .cmd1, h .y, h .cnt, h .pindir, h .out, h .irq, h .txq,
      h .rxq, h .cycle, h .pending, h .received, h .trace, h .events, h .host, h .env, h .finished⟩
  · rintro ⟨h1, h2, h3, h4, h5, h6, h7, h8, h9, h10, h11, h12, h13, h14, h15, h16, h17, h18, h19, h20, h21⟩ r
    cases r
    exacts [h1, h2, h3, h4, h5, h6, h7, h8, h9, h10, h11, h12, h13, h14, h15, h16, h17, h18, h19, h20, h21]

end Sys2Proof.Machine
end

