-- ==== Sys2Proof/Laws/Harness.lean ====
section
/-! SUPPORT. What the builder and its range check can do. -/

namespace Sys2Proof.Machine

theorem outside_eq_none (which : ParamRange) (lo v : Nat) : outside which lo v = none ↔ lo ≤ v ∧ v ≤ 4096 := by
  unfold outside
  split <;> simp_all

/-- The parameters are in range exactly when the ranges of 45_scenarios R243 hold. -/
theorem inRange_iff (p : Params) :
    p.inRange = true ↔
      (1 ≤ p.idLen ∧ p.idLen ≤ 4096) ∧ p.colCycles ≤ 4096 ∧ (1 ≤ p.rowCycles ∧ p.rowCycles ≤ 4096) ∧
      (1 ≤ p.colCycles + p.rowCycles ∧ p.colCycles + p.rowCycles ≤ 4096) ∧
      (1 ≤ p.readLen ∧ p.readLen ≤ 4096) ∧ (1 ≤ p.progData.length ∧ p.progData.length ≤ 4096) := by
  simp [Params.inRange, Option.isNone_iff_eq_none, outside_eq_none]

/-- A scenario is not refused exactly when its own checks all pass. -/
theorem firstOutside_eq_none (p : Params) (n : ScenarioName) :
    p.firstOutside n = none ↔ ∀ c ∈ p.rangeChecks n, c = none := by
  simp [Params.firstOutside, List.findSome?_eq_none_iff]

/-- Parameters in range pass the checks of every scenario. -/
theorem firstOutside_of_inRange (p : Params) (n : ScenarioName) (h : p.inRange = true) : p.firstOutside n = none := by
  rw [inRange_iff] at h
  rw [firstOutside_eq_none]
  cases n <;> simp [Params.rangeChecks, outside_eq_none, h]

/-- What `build` answers: the encoding error, else the refused parameter, else the words. -/
theorem build_cases (m : Id5Mode) (p : Params) (n : ScenarioName) :
    (∃ e, assemble m (expansion p n) = .error e ∧ build m p n = .error (.error e)) ∨
    (∃ ws which v, assemble m (expansion p n) = .ok ws ∧ p.firstOutside n = some (which, v) ∧
      build m p n = .error (.paramOutOfRange which v)) ∨
    (∃ ws, assemble m (expansion p n) = .ok ws ∧ p.firstOutside n = none ∧ build m p n = .ok ws) := by
  unfold build
  split
  · exact .inl ⟨_, ‹_›, rfl⟩
  · split
    · exact .inr (.inl ⟨_, _, _, ‹_›, ‹_›, rfl⟩)
    · exact .inr (.inr ⟨_, ‹_›, ‹_›, rfl⟩)

/-- The spelling of a scenario's name selects it (45_scenarios R241). -/
@[simp] theorem selectScenario_text (n : ScenarioName) : selectScenario n.text = .ok n := by
  cases n <;> decide

end Sys2Proof.Machine
end

