-- ==== Sys2Proof/Laws/Host.lean ====
section
/-! SUPPORT. What the host's turn can do, whichever host it is; and the shape of a step. -/

namespace Sys2Proof.Machine

/-! ### `beginCycle` -/

@[simp] theorem beginCycle_cfg (s : State) : (beginCycle s).cfg = s.cfg := rfl
@[simp] theorem beginCycle_phase (s : State) : (beginCycle s).phase = s.phase := rfl
@[simp] theorem beginCycle_kind (s : State) : (beginCycle s).kind = s.kind := rfl
@[simp] theorem beginCycle_tmr (s : State) : (beginCycle s).tmr = s.tmr := rfl
@[simp] theorem beginCycle_cmd0 (s : State) : (beginCycle s).cmd0 = s.cmd0 := rfl
@[simp] theorem beginCycle_cmd1 (s : State) : (beginCycle s).cmd1 = s.cmd1 := rfl
@[simp] theorem beginCycle_y (s : State) : (beginCycle s).y = s.y := rfl
@[simp] theorem beginCycle_cnt (s : State) : (beginCycle s).cnt = s.cnt := rfl
@[simp] theorem beginCycle_pindir (s : State) : (beginCycle s).pindir = s.pindir := rfl
@[simp] theorem beginCycle_out (s : State) : (beginCycle s).out = s.out := rfl
@[simp] theorem beginCycle_irq (s : State) : (beginCycle s).irq = s.irq := rfl
@[simp] theorem beginCycle_txq (s : State) : (beginCycle s).txq = s.txq := rfl
@[simp] theorem beginCycle_rxq (s : State) : (beginCycle s).rxq = s.rxq := rfl
@[simp] theorem beginCycle_cycle (s : State) : (beginCycle s).cycle = s.cycle := rfl
@[simp] theorem beginCycle_pending (s : State) : (beginCycle s).pending = s.pending := rfl
@[simp] theorem beginCycle_received (s : State) : (beginCycle s).received = s.received := rfl
@[simp] theorem beginCycle_trace (s : State) : (beginCycle s).trace = s.trace := rfl
@[simp] theorem beginCycle_events (s : State) : (beginCycle s).events = [] := rfl
@[simp] theorem beginCycle_host (s : State) : (beginCycle s).host = s.host := rfl
@[simp] theorem beginCycle_env (s : State) : (beginCycle s).env = s.env := rfl
@[simp] theorem beginCycle_finished (s : State) : (beginCycle s).finished = s.finished := rfl

/-! ### The host's turn -/

/-- The fields of the state machine that no host writes: all but the queues and `IRQ` (20_memory R70). -/
structure RegistersKept (s t : State) : Prop where
  cfg : t.cfg = s.cfg
  phase : t.phase = s.phase
  kind : t.kind = s.kind
  tmr : t.tmr = s.tmr
  cmd0 : t.cmd0 = s.cmd0
  cmd1 : t.cmd1 = s.cmd1
  y : t.y = s.y
  cnt : t.cnt = s.cnt
  pindir : t.pindir = s.pindir
  out : t.out = s.out
  cycle : t.cycle = s.cycle
  trace : t.trace = s.trace
  events : t.events = s.events
  env : t.env = s.env
  finished : t.finished = s.finished

theorem RegistersKept.refl (s : State) : RegistersKept s s :=
  ⟨rfl, rfl, rfl, rfl, rfl, rfl, rfl, rfl, rfl, rfl, rfl, rfl, rfl, rfl, rfl⟩

theorem RegistersKept.trans {s t u : State} (h : RegistersKept s t) (k : RegistersKept t u) : RegistersKept s u :=
  ⟨k.cfg.trans h.cfg, k.phase.trans h.phase, k.kind.trans h.kind, k.tmr.trans h.tmr, k.cmd0.trans h.cmd0,
    k.cmd1.trans h.cmd1, k.y.trans h.y, k.cnt.trans h.cnt, k.pindir.trans h.pindir, k.out.trans h.out,
    k.cycle.trans h.cycle, k.trace.trans h.trace, k.events.trans h.events, k.env.trans h.env,
    k.finished.trans h.finished⟩

/-- A relation between states that every host action, service and bookkeeping write of the host satisfies, and that is
closed under composition, holds of the whole host turn. -/
theorem hostTurn_induct (R : State → State → Prop) (refl : ∀ s, R s s)
    (trans : ∀ s t u, R s t → R t u → R s u)
    (act : ∀ a s t, hostAct a s = some t → R s t)
    (pop : ∀ s, R s (servicePop s)) (push : ∀ s, R s (servicePush s))
    (script : ∀ (s : State) (turns : List (List HostAction)), R s { s with host := .script turns })
    (s : State) : R s (hostTurn s) := by
  have acts : ∀ (as : List HostAction) (s : State), R s (runActions as s).2 := by
    intro as
    induction as with
    | nil => exact fun s => refl s
    | cons a as ih =>
      intro s
      unfold runActions
      split
      · next t h => exact trans _ _ _ (act a s t h) (ih t)
      · exact refl s
  unfold hostTurn
  split
  · exact trans _ _ _ (pop s) (push _)
  · next turns =>
    unfold scriptTurn
    split
    · exact refl s
    · next turn later =>
      have h := acts turn s
      split
      · next t e =>
        rw [e] at h
        exact trans _ _ _ h (script _ _)
      · next left t _ e =>
        rw [e] at h
        exact trans _ _ _ h (script _ _)

/-- The host's turn writes no register of the state machine. -/
theorem registersKept_hostTurn (s : State) : RegistersKept s (hostTurn s) := by
  refine hostTurn_induct RegistersKept RegistersKept.refl (fun _ _ _ => RegistersKept.trans) ?_ ?_ ?_ ?_ s
  · intro a s t h
    unfold hostAct at h
    split at h
    · split at h <;> cases h
      exact ⟨rfl, rfl, rfl, rfl, rfl, rfl, rfl, rfl, rfl, rfl, rfl, rfl, rfl, rfl, rfl⟩
    · split at h <;> cases h
      exact ⟨rfl, rfl, rfl, rfl, rfl, rfl, rfl, rfl, rfl, rfl, rfl, rfl, rfl, rfl, rfl⟩
    · cases h
      exact ⟨rfl, rfl, rfl, rfl, rfl, rfl, rfl, rfl, rfl, rfl, rfl, rfl, rfl, rfl, rfl⟩
    · cases h
      exact RegistersKept.refl _
  · exact fun s => ⟨rfl, rfl, rfl, rfl, rfl, rfl, rfl, rfl, rfl, rfl, rfl, rfl, rfl, rfl, rfl⟩
  · intro s
    unfold servicePush
    split
    · exact ⟨rfl, rfl, rfl, rfl, rfl, rfl, rfl, rfl, rfl, rfl, rfl, rfl, rfl, rfl, rfl⟩
    · exact RegistersKept.refl _
  · exact fun s turns => ⟨rfl, rfl, rfl, rfl, rfl, rfl, rfl, rfl, rfl, rfl, rfl, rfl, rfl, rfl, rfl⟩

/-- What the driver's pushes do: a front part of the pending words moves to the end of the queue, within `need`, and as
much as `need` and the pending words allow (46_harness R291). -/
theorem feed_spec (need : Nat) (q ws : List Word) :
    ∃ pushed : List Word, (feed need q ws).1 = q ++ pushed ∧ ws = pushed ++ (feed need q ws).2 ∧
      (pushed = [] ∨ q.length + pushed.length ≤ need) ∧ ((feed need q ws).2 = [] ∨ need ≤ (q ++ pushed).length) := by
  induction ws generalizing q with
  | nil => exact ⟨[], by simp [feed]⟩
  | cons w ws ih =>
    unfold feed
    split
    · next h =>
      obtain ⟨p, h1, h2, h3, h4⟩ := ih (q ++ [w])
      refine ⟨w :: p, by rw [h1]; simp, by rw [List.cons_append, ← h2], .inr ?_, ?_⟩
      · rcases h3 with rfl | h3
        · simp; omega
        · simp at h3 ⊢; omega
      · rcases h4 with h4 | h4
        · exact .inl h4
        · right; simp at h4 ⊢; omega
    · next h => exact ⟨[], by simp; omega⟩

/-- No action of a host fills a queue beyond its depth (20_memory R70). -/
theorem hostAct_lengths (a : HostAction) (s t : State) (h : hostAct a s = some t) :
    t.txq.length ≤ max s.txq.length s.cfg.txDepth ∧ t.rxq.length ≤ s.rxq.length := by
  unfold hostAct at h
  split at h
  · split at h <;> cases h
    constructor
    · simp; omega
    · exact Nat.le_refl _
  · split at h <;> cases h
    next e => exact ⟨Nat.le_max_left _ _, by simp [e]⟩
  · cases h
    exact ⟨Nat.le_max_left _ _, Nat.le_refl _⟩
  · cases h
    exact ⟨Nat.le_max_left _ _, Nat.le_refl _⟩

/-- No host's turn fills a queue beyond its depth. -/
theorem hostTurn_lengths (s : State) :
    (hostTurn s).txq.length ≤ max s.txq.length s.cfg.txDepth ∧ (hostTurn s).rxq.length ≤ s.rxq.length := by
  have h := hostTurn_induct
    (fun s t => t.cfg = s.cfg ∧ t.txq.length ≤ max s.txq.length s.cfg.txDepth ∧ t.rxq.length ≤ s.rxq.length)
    (fun s => ⟨rfl, Nat.le_max_left _ _, Nat.le_refl _⟩)
    (fun s t u h k => ⟨k.1.trans h.1, by rw [h.1] at k; omega, Nat.le_trans k.2.2 h.2.2⟩)
    (fun a s t h => ⟨by
      unfold hostAct at h
      split at h
      · split at h <;> cases h
        rfl
      · split at h <;> cases h
        rfl
      · cases h
        rfl
      · cases h
        rfl, hostAct_lengths a s t h⟩)
    (fun s => ⟨rfl, by
      obtain ⟨p, h1, -, h3, -⟩ := feed_spec (min (demand s) s.cfg.txDepth) s.txq s.pending
      simp only [servicePop, h1, List.length_append]
      rcases h3 with rfl | h3
      · simp
      · omega, Nat.le_refl _⟩)
    (fun s => by
      unfold servicePush
      split
      · exact ⟨rfl, Nat.le_max_left _ _, by simp [drain]⟩
      · exact ⟨rfl, Nat.le_max_left _ _, Nat.le_refl _⟩)
    (fun s turns => ⟨rfl, Nat.le_max_left _ _, Nat.le_refl _⟩) s
  exact h.2

/-- Everything a step that answers a next state can be: a run that is over, or the cycle of the state machine on the
state the host left, with the snapshot added (46_harness R293). -/
theorem step_next_cases (s t : State) (h : step s = .next t) :
    s.cfg.valid = true ∧
    ((s.finished = true ∧ t = s) ∨
    (s.finished = false ∧ atCeiling s = false ∧
      ∃ u : State, machineCycle (beginCycle (hostTurn s)) = .next u ∧ t = endCycle u)) := by
  unfold step at h
  split at h
  · cases h
  · next hv =>
    refine ⟨by simpa using hv, ?_⟩
    split at h
    · next hf =>
      cases h
      exact .inl ⟨hf, rfl⟩
    · next hf =>
      split at h
      · cases h
      · next hc =>
        split at h
        · next u hu =>
          cases h
          exact .inr ⟨by simpa using hf, by simpa using hc, u, hu, rfl⟩
        · cases h
        · cases h

/-! ### The end of a cycle -/

@[simp] theorem endCycle_cfg (s : State) : (endCycle s).cfg = s.cfg := by
  unfold endCycle
  split <;> rfl

@[simp] theorem endCycle_phase (s : State) : (endCycle s).phase = s.phase := by
  unfold endCycle
  split <;> rfl

@[simp] theorem endCycle_kind (s : State) : (endCycle s).kind = s.kind := by
  unfold endCycle
  split <;> rfl

@[simp] theorem endCycle_tmr (s : State) : (endCycle s).tmr = s.tmr := by
  unfold endCycle
  split <;> rfl

@[simp] theorem endCycle_cmd0 (s : State) : (endCycle s).cmd0 = s.cmd0 := by
  unfold endCycle
  split <;> rfl

@[simp] theorem endCycle_cmd1 (s : State) : (endCycle s).cmd1 = s.cmd1 := by
  unfold endCycle
  split <;> rfl

@[simp] theorem endCycle_y (s : State) : (endCycle s).y = s.y := by
  unfold endCycle
  split <;> rfl

@[simp] theorem endCycle_cnt (s : State) : (endCycle s).cnt = s.cnt := by
  unfold endCycle
  split <;> rfl

@[simp] theorem endCycle_pindir (s : State) : (endCycle s).pindir = s.pindir := by
  unfold endCycle
  split <;> rfl

@[simp] theorem endCycle_out (s : State) : (endCycle s).out = s.out := by
  unfold endCycle
  split <;> rfl

@[simp] theorem endCycle_irq (s : State) : (endCycle s).irq = s.irq := by
  unfold endCycle
  split <;> rfl

@[simp] theorem endCycle_txq (s : State) : (endCycle s).txq = s.txq := by
  unfold endCycle
  split <;> rfl

@[simp] theorem endCycle_pending (s : State) : (endCycle s).pending = s.pending := by
  unfold endCycle
  split <;> rfl

@[simp] theorem endCycle_host (s : State) : (endCycle s).host = s.host := by
  unfold endCycle
  split <;> rfl

@[simp] theorem endCycle_events (s : State) : (endCycle s).events = s.events := by
  unfold endCycle
  split <;> rfl

@[simp] theorem endCycle_trace (s : State) : (endCycle s).trace = s.trace ++ [snapshot s] := by
  unfold endCycle
  split <;> rfl

/-- What the end of a cycle leaves: the registers and the pins as they are, the snapshot added. -/
theorem endCycle_spec (s : State) :
    (endCycle s).cfg = s.cfg ∧ (endCycle s).phase = s.phase ∧ (endCycle s).kind = s.kind ∧
    (endCycle s).tmr = s.tmr ∧ (endCycle s).cmd0 = s.cmd0 ∧ (endCycle s).cmd1 = s.cmd1 ∧ (endCycle s).y = s.y ∧
    (endCycle s).cnt = s.cnt ∧ (endCycle s).pindir = s.pindir ∧ (endCycle s).out = s.out ∧
    (endCycle s).irq = s.irq ∧ (endCycle s).txq = s.txq ∧ (endCycle s).pending = s.pending ∧
    (endCycle s).host = s.host ∧ (endCycle s).events = s.events ∧
    (endCycle s).trace = s.trace ++ [snapshot s] ∧
    (endCycle s).received ++ (endCycle s).rxq = s.received ++ s.rxq ∧ (endCycle s).rxq.length ≤ s.rxq.length := by
  unfold endCycle
  simp only
  split <;> simp [drain]

end Sys2Proof.Machine
end

