-- ==== Sys2Proof/Laws/PerInstr.lean ====
section
/-! SUPPORT. The statements made per command, and one lemma for each constructor of `Instr`. -/

namespace Sys2Proof.Laws.RowMatch

/-- `mask` of the command's row of the opcode table. -/
def rowMask : Instr → Word
  | .bitbang _ _ _ => 0xF0000000
  | .cmdLatch _ _ _ => 0xF0000000
  | .addrLatch _ _ _ => 0xF0000000
  | .dataOutput _ _ _ => 0xF0000000
  | .dataInput _ _ _ => 0xF0000000
  | .signal _ _ _ => 0xF0000000
  | .waitRbbFive _ _ _ => 0xF0000000
  | .waitRbbSixSeven _ _ _ _ => 0xE0000000
  | .waitRbbHigh _ _ _ _ => 0x80000000

/-- `match` of the command's row of the opcode table. -/
def rowMatch : Instr → Word
  | .bitbang _ _ _ => 0x00000000
  | .cmdLatch _ _ _ => 0x10000000
  | .addrLatch _ _ _ => 0x20000000
  | .dataOutput _ _ _ => 0x30000000
  | .dataInput _ _ _ => 0x40000000
  | .signal _ _ _ => 0x50000000
  | .waitRbbFive _ _ _ => 0x50000000
  | .waitRbbSixSeven _ _ _ _ => 0x60000000
  | .waitRbbHigh _ _ _ _ => 0x80000000

/-- The first word of the command's encoding matches its row, and the encoding is the two words of a head. -/
def Statement (i : Instr) : Prop :=
  ∃ c0 c1 : Word, encode i = [c0, c1] ∧ c0 &&& rowMask i = rowMatch i ∧ c1 = i.cmd1

/-- A mask on the top four bits of an assembled word sees the id alone. -/
theorem cmd0Word_and (id m : BitVec 4) (tc : BitVec 12) (pd : BitVec 16) :
    cmd0Word id tc pd &&& cmd0Word m 0 0 = cmd0Word (id &&& m) 0 0 := by
  apply BitVec.eq_of_getLsbD_eq
  intro j hj
  rw [BitVec.getLsbD_and, getLsbD_cmd0Word, getLsbD_cmd0Word, getLsbD_cmd0Word]
  split
  · simp
  · split <;> simp

theorem bitbang (tc : BitVec 12) (pd : BitVec 16) (cmd1 : Word) : Statement (.bitbang tc pd cmd1) :=
  ⟨_, _, rfl, cmd0Word_and 0 15 tc pd, rfl⟩

theorem cmdLatch (tc : BitVec 12) (pd : BitVec 16) (cmd1 : Word) : Statement (.cmdLatch tc pd cmd1) :=
  ⟨_, _, rfl, cmd0Word_and 1 15 tc pd, rfl⟩

theorem addrLatch (tc : BitVec 12) (pd : BitVec 16) (cmd1 : Word) : Statement (.addrLatch tc pd cmd1) :=
  ⟨_, _, rfl, cmd0Word_and 2 15 tc pd, rfl⟩

theorem dataOutput (tc : BitVec 12) (pd : BitVec 16) (cmd1 : Word) : Statement (.dataOutput tc pd cmd1) :=
  ⟨_, _, rfl, cmd0Word_and 3 15 tc pd, rfl⟩

theorem dataInput (tc : BitVec 12) (pd : BitVec 16) (cmd1 : Word) : Statement (.dataInput tc pd cmd1) :=
  ⟨_, _, rfl, cmd0Word_and 4 15 tc pd, rfl⟩

theorem signal (tc : BitVec 12) (pd : BitVec 16) (cmd1 : Word) : Statement (.signal tc pd cmd1) :=
  ⟨_, _, rfl, cmd0Word_and 5 15 tc pd, rfl⟩

theorem waitRbbFive (tc : BitVec 12) (pd : BitVec 16) (cmd1 : Word) : Statement (.waitRbbFive tc pd cmd1) :=
  ⟨_, _, rfl, cmd0Word_and 5 15 tc pd, rfl⟩

/-- The id of the row of ids 6 and 7 under the row's mask. -/
theorem id_sixSeven (low : BitVec 1) : (0b011#3 ++ low) &&& 14#4 = 6#4 := by
  revert low
  decide

/-- The id of the row of ids 8 to 15 under the row's mask. -/
theorem id_high (low : BitVec 3) : (1#1 ++ low) &&& 8#4 = 8#4 := by
  revert low
  decide

theorem waitRbbSixSeven (low : BitVec 1) (tc : BitVec 12) (pd : BitVec 16) (cmd1 : Word) :
    Statement (.waitRbbSixSeven low tc pd cmd1) :=
  ⟨_, _, rfl, (cmd0Word_and (0b011#3 ++ low) 14 tc pd).trans
    (congrArg (fun id => cmd0Word id 0 0) (id_sixSeven low)), rfl⟩

theorem waitRbbHigh (low : BitVec 3) (tc : BitVec 12) (pd : BitVec 16) (cmd1 : Word) :
    Statement (.waitRbbHigh low tc pd cmd1) :=
  ⟨_, _, rfl, (cmd0Word_and (1#1 ++ low) 8 tc pd).trans (congrArg (fun id => cmd0Word id 0 0) (id_high low)), rfl⟩

end Sys2Proof.Laws.RowMatch
end

