-- ==== Sys2Proof/Laws/Run.lean ====
section
/-! SUPPORT. Runs of several steps, from one step at a time. -/

namespace Sys2Proof.Machine

/-- A run whose first step answers a next state, on any machine. -/
theorem core_run_succ_of_next (M : Host.Core) (n : Nat) (s t : M.State) (h : M.step s = .next t) :
    M.run (n + 1) s = M.run n t := by
  rw [Host.Core.run, h]

/-- A run of one step more that answers a next state, on any machine. -/
theorem core_run_succ_next (M : Host.Core) (n : Nat) (s u : M.State) (h : M.run (n + 1) s = .next u) :
    ∃ t : M.State, M.step s = .next t ∧ M.run n t = .next u := by
  rw [Host.Core.run] at h
  split at h
  · next t hs => exact ⟨t, hs, h⟩
  · cases h
  · cases h

/-- One more step in front. -/
theorem run_succ_of_next (n : Nat) (s t : State) (h : step s = .next t) :
    Host.Core.run core (n + 1) s = Host.Core.run core n t :=
  core_run_succ_of_next core n s t h

/-- The first step of a run that answers a next state. -/
theorem run_succ_next (n : Nat) (s u : State) (h : Host.Core.run core (n + 1) s = .next u) :
    ∃ t : State, step s = .next t ∧ Host.Core.run core n t = .next u :=
  core_run_succ_next core n s u h

/-- A run of no step. -/
theorem run_zero (s : State) : Host.Core.run core 0 s = .next s := rfl

/-- Two runs one after the other. -/
theorem run_add (n m : Nat) (s t : State) (h : Host.Core.run core n s = .next t) :
    Host.Core.run core (n + m) s = Host.Core.run core m t := by
  induction n generalizing s with
  | zero =>
    cases h
    rw [Nat.zero_add]
  | succ n ih =>
    obtain ⟨u, hu, hr⟩ := run_succ_next n s t h
    rw [Nat.add_right_comm, run_succ_of_next _ _ _ hu]
    exact ih u hr

/-- What every step keeps, every run keeps. -/
theorem run_invariant (P : State → Prop) (hP : ∀ s t : State, P s → step s = .next t → P t) (n : Nat) (s t : State)
    (hs : P s) (h : Host.Core.run core n s = .next t) : P t := by
  induction n generalizing s with
  | zero =>
    cases h
    exact hs
  | succ n ih =>
    obtain ⟨u, hu, hr⟩ := run_succ_next n s t h
    exact ih u (hP s u hs hu) hr

end Sys2Proof.Machine
end

