-- ==== Sys2Proof/Tests/Slice0.lean ====
section
/-! SUPPORT. Named tests: the checks of WellFormed, one written-out word per command, one or two single cycles per
command with the values of 95_test_vectors, and a witness for the hypotheses of every statement. -/

namespace Sys2Proof.Tests

open Sys2Proof Sys2Proof.Machine

/-! ## WellFormed -/

theorem test_signal_ill_formed_under_waitRbb : (Instr.signal 0 0x7FFF 0).wellFormed .waitRbb = false := by decide

theorem test_waitRbbFive_ill_formed_under_signal : (Instr.waitRbbFive 0 0x7FFF 0).wellFormed .signal = false := by decide

/-! ## One word of every constructor, written out from 30_encoding R91 and R102 (95 V24 for the ids above 5) -/

theorem test_decode_bitbang :
    decodeWords .signal [0x00007FFF, 0x000001A5] = .ok (.bitbang 0 0x7FFF 0x1A5, []) := by decide

theorem test_decode_cmdLatch :
    decodeWords .signal [0x1ABC1234, 0x000002FF] = .ok (.cmdLatch 0xABC 0x1234 0x2FF, []) := by decide

theorem test_decode_addrLatch :
    decodeWords .signal [0x20027FFF, 0, 0x201] = .ok (.addrLatch 2 0x7FFF 0, [0x201]) := by decide

theorem test_decode_dataOutput :
    decodeWords .waitRbb [0x3FFF7F00, 0] = .ok (.dataOutput 0xFFF 0x7F00 0, []) := by decide

theorem test_decode_dataInput :
    decodeWords .signal [0x40017FFF, 0] = .ok (.dataInput 1 0x7FFF 0, []) := by decide

theorem test_decode_signal : decodeWords .signal [0x5FFF0000, 0] = .ok (.signal 0xFFF 0 0, []) := by decide

theorem test_decode_waitRbbFive : decodeWords .waitRbb [0x5FFF0000, 0] = .ok (.waitRbbFive 0xFFF 0 0, []) := by decide

theorem test_decode_waitRbbSixSeven :
    decodeWords .signal [0x7FFFFFFF, 0] = .ok (.waitRbbSixSeven 1 0xFFF 0xFFFF 0, []) := by decide

theorem test_decode_waitRbbHigh :
    decodeWords .signal [0x80000000, 0] = .ok (.waitRbbHigh 0 0 0 0, []) := by decide

theorem test_decode_truncated : decodeWords .signal [0x10007FFF] = .error .truncated := by decide

theorem test_decode_bytes :
    decodeBytes .signal [0x34, 0x12, 0xBC, 0x1A, 0xFF, 0x02, 0x00, 0x00] = .ok (.cmdLatch 0xABC 0x1234 0x2FF, []) := by
  decide

/-- The table's numbering: the second word starts at bit 32; what the table gives no bits is 0. -/
theorem test_decodeTableWord :
    decodeTableWord 32 0x20020000 = some (.addrLatch 2 0 0) ∧
    decodeTableWord 64 (0x1ABC1234 + 0x2FF * 2 ^ 32) = some (.cmdLatch 0xABC 0x1234 0x2FF) := by decide

/-! ## Single cycles -/

/-- Levels of the environment for the coming cycles: `RBB` high, the chip drives 0xA5. -/
def quiet : List Pins := [0x80A5, 0x80A5, 0x80A5, 0x80A5, 0x80A5, 0x80A5, 0x80A5, 0x80A5]

/-- The reset state with known levels, in phase `p` of a command of kind `k`, whose output latches hold `o`. -/
def during (k : Kind) (p : Phase) (o : Pins) : State :=
  { State.reset with kind := k, phase := p, out := o, env := quiet, pindir := 0x7F00 }

/-- The default configuration with every time two cycles or more. -/
def slowCfg : Cfg := { Cfg.default with tSetup := 3, tHold := 2, tRsettle := 4 }

/-- The next state of an outcome, the given one where there is none. -/
def nextOr (s : State) (o : Host.Outcome State Fault Refusal) : State :=
  match o with
  | .next t => t
  | .fault _ => s
  | .refused _ => s

/-- The state after the step, the same state where the step stops. -/
def after (s : State) : State := nextOr s (step s)

/-- Bits 31:10 of cmd_1 are ignored, `OUT[14:10]` is kept (95 V43). -/
theorem test_bitbang_emits :
    (nextOr State.reset (exec (.bitbang 0xFFF 0x7FFF 0xFFFFFD5A)
      { during .bitbang .bbEmit 0x7300 with cmd1 := 0xFFFFFD5A })).out = 0x715A#16 := by decide

/-- The dispatch of `cmd_latch` (95 V31, cycle 3). -/
theorem test_cmdLatch_dispatch :
    (nextOr State.reset (exec (.cmdLatch 0 0x7FFF 0x2FF) (during .waitRbb .setupB 0x7300))).out = 0x7700#16 ∧
    (nextOr State.reset (exec (.cmdLatch 0 0x7FFF 0x2FF) (during .waitRbb .setupB 0x7300))).phase = .wPlace := by decide

/-- The placement of `cmd_latch`: `web` falls with the payload (95 V31, cycle 4). -/
theorem test_cmdLatch_place :
    (nextOr State.reset (exec (.cmdLatch 0 0x7FFF 0x2FF)
      { during .cmdLatch .wPlace 0x7700 with cmd1 := 0x2FF })).out = 0x56FF#16 := by decide

/-- The placement of `addr_latch` pops (95 V32, cycle 1). -/
theorem test_addrLatch_place :
    (nextOr State.reset (exec (.addrLatch 1 0x7FFF 0)
      { during .addrLatch .wPlace 0x7B00 with txq := [0x211] })).out = 0x5A11#16 := by decide

/-- An empty queue stalls `addr_latch` before `web` falls (95 V32, cycle 3). -/
theorem test_addrLatch_stall :
    (nextOr State.reset (exec (.addrLatch 1 0x7FFF 0) (during .addrLatch .wPlace 0x7A11))).out = 0x7A11#16 ∧
    (nextOr State.reset (exec (.addrLatch 1 0x7FFF 0) (during .addrLatch .wPlace 0x7A11))).events =
      [.stall .txEmpty] := by decide

/-- The sample is the data pins' level and raises `reb` (42_transfer_commands R203). -/
theorem test_dataOutput_sample :
    (nextOr State.reset (exec (.dataOutput 0 0x7F00 0) (during .dataOutput .rSample 0x3300))).rxq = [0xA5] ∧
    (nextOr State.reset (exec (.dataOutput 0 0x7F00 0) (during .dataOutput .rSample 0x3300))).out = 0x7300#16 := by
  decide

/-- A full queue stalls the sample with `reb` low (95 V33). -/
theorem test_dataOutput_stall :
    (nextOr State.reset (exec (.dataOutput 0 0x7F00 0)
      { during .dataOutput .rSample 0x3300 with rxq := [1, 2, 3, 4] })).events = [.stall .rxFull] ∧
    (nextOr State.reset (exec (.dataOutput 0 0x7F00 0)
      { during .dataOutput .rSample 0x3300 with rxq := [1, 2, 3, 4] })).out = 0x3300#16 := by decide

/-- The edge of `data_input` with a byte left goes back to place the next one (40_dispatch R150). -/
theorem test_dataInput_loops :
    (nextOr State.reset (exec (.dataInput 1 0x7FFF 0)
      { during .dataInput .wRise 0x5211 with cnt := 1 })).phase = .wPlace ∧
    (nextOr State.reset (exec (.dataInput 1 0x7FFF 0) { during .dataInput .wRise 0x5211 with cnt := 1 })).cnt = 0 := by
  decide

/-- The last edge of `data_input` ends the command without an exit phase (42_transfer_commands R211). -/
theorem test_dataInput_ends :
    (nextOr State.reset (exec (.dataInput 1 0x7FFF 0) (during .dataInput .wRise 0x5211))).phase = .setupA ∧
    (nextOr State.reset (exec (.dataInput 1 0x7FFF 0) (during .dataInput .wRise 0x5211))).out = 0x7211#16 := by decide

/-- `signal` raises the flag (43_sync_commands R222). -/
theorem test_signal_raises :
    (nextOr State.reset (exec (.signal 0 0x7FFF 0) (during .signal .signal 0x7300))).irq = true ∧
    (nextOr State.reset (exec (.signal 0 0x7FFF 0) (during .signal .signal 0x7300))).phase = .setupA := by decide

/-- `wait_rbb` of id 5: its dispatch writes `Y` with 5 (95 V38). -/
theorem test_waitRbbFive_dispatch :
    (nextOr State.reset (exec (.waitRbbFive 0 0x7FFF 0) (during .waitRbb .setupA 0x7300))).y = 5 ∧
    (nextOr State.reset (exec (.waitRbbFive 0 0x7FFF 0) (during .waitRbb .setupA 0x7300))).phase = .waitRbb := by decide

/-- `wait_rbb` of id 7 with the pin ready (95 V34). -/
theorem test_waitRbbSixSeven_ready :
    (nextOr State.reset (exec (.waitRbbSixSeven 1 0 0x7FFF 0) (during .waitRbb .waitRbb 0x7300))).phase = .setupA ∧
    (nextOr State.reset (exec (.waitRbbSixSeven 1 0 0x7FFF 0) (during .waitRbb .waitRbb 0x7300))).events =
      [.rbbReady] := by decide

/-- `wait_rbb` of id 15 with the pin busy (95 V34). -/
theorem test_waitRbbHigh_busy :
    (nextOr State.reset (exec (.waitRbbHigh 7 0 0x7FFF 0)
      { during .waitRbb .waitRbb 0x7300 with env := [0x00A5] })).phase = .waitRbb ∧
    (nextOr State.reset (exec (.waitRbbHigh 7 0 0x7FFF 0)
      { during .waitRbb .waitRbb 0x7300 with env := [0x00A5] })).events = [] := by decide

/-- An instruction placed by `withFetchWord` is the first that a step from reset runs. -/
theorem test_first_step_after_reset :
    (nextOr State.reset (step (State.reset.withFetchWord 64 (0x10007FFF + 0x2FF * 2 ^ 32)))).kind = .cmdLatch ∧
    (nextOr State.reset (step (State.reset.withFetchWord 64 (0x10007FFF + 0x2FF * 2 ^ 32)))).cmd1 = 0x2FF#32 := by
  decide

/-! ## The hypotheses of the statements can be met -/

theorem test_wit_OpcodeMapClassifies :
    waitRbbId .signal ≤ (6#4).toNat ∧ waitRbbId .waitRbb ≤ (15#4).toNat ∧ (5#4).toNat < waitRbbId .signal ∧
    (0#4).toNat < waitRbbId .waitRbb := by decide

theorem test_wit_NoIllegalCommandWord :
    waitRbbId .signal < (cmdIdField 0x70000000).toNat ∧ waitRbbId .waitRbb < (cmdIdField 0x60000000).toNat ∧
    phaseBelongs (decodeHead .signal 0xF0000000 0).kind (during .waitRbb .waitRbb 0x7300).phase = true := by decide

theorem test_wit_DecodeEncodeRoundTrip :
    (Instr.signal 0xFFF 0xFFFF 0xFFFFFFFF).wellFormed .signal = true ∧
    (Instr.waitRbbFive 0xFFF 0xFFFF 0xFFFFFFFF).wellFormed .waitRbb = true := by decide

theorem test_wit_CodecRoundTrip :
    encodeCheck 15 4095 0xFFFF [] = none ∧ encodeCheck 4 1 0 [0, 1023] = none ∧ encodeCheck 0 0 0xFFFF [1023] = none := by
  decide

theorem test_wit_EncodeSucceedsExactlyInRange :
    encodeCmd .signal .dataOutput 4096 0xFFFF [] = .ok [0x3FFFFFFF, 0] ∧
    encodeCmd .waitRbb .dataOutput 1 0 [] = .ok [0x30000000, 0] := by decide

theorem test_wit_DecodeConsumesFrameLength :
    decodeFrame .signal [0x20010000, 0, 0x201, 0x3FF, 7] =
      .ok (⟨2, .addrLatch, 1, 2, 0, [0x201, 0x3FF]⟩, [7]) ∧
    frameLength .waitRbb 0x40010000 ≤ [0x40010000, 0, 1, (2 : Word)].length := by decide

theorem test_wit_ResetSatisfiesInvariants :
    slowCfg.valid = true ∧ slowCfg.initOut.getLsbD 13 = true ∧ slowCfg.initOut.getLsbD 14 = true ∧
    slowCfg.initOut.getLsbD 10 = false ∧ slowCfg.initOut.getLsbD 11 = false := by decide

/-- A driver about to fetch `ws`, with known levels. -/
def fetching (ws : List Word) : State := { State.resetWith Cfg.default ws with env := quiet }

/-- A driver whose machine runs the `data_output` of these two words. -/
def reading : State :=
  { during .dataOutput .rLow 0x3300 with cfg := slowCfg, cmd0 := 0x30017F00, y := 3, cnt := 1, tmr := 2 }

theorem test_wit_StepRunsDecodedInstruction_setupA :
    ∃ (s u : State) (c0 c1 : Word) (rest : List Word) (i : Instr), Runnable s ∧ u = beginCycle (hostTurn s) ∧
      u.phase = .setupA ∧ u.txq = c0 :: c1 :: rest ∧ decodeWords u.cfg.id5Mode u.txq = .ok (i, rest) :=
  ⟨fetching [0x10007FFF, 0x2FF], _, 0x10007FFF, 0x2FF, [], .cmdLatch 0 0x7FFF 0x2FF, by unfold Runnable; decide, rfl,
    by decide, by decide, by decide⟩

theorem test_wit_StepRunsDecodedInstruction_setupB :
    ∃ (s u : State) (c1 : Word) (rest : List Word) (i : Instr), Runnable s ∧ u = beginCycle (hostTurn s) ∧
      u.phase = .setupB ∧ u.txq = c1 :: rest ∧ decodeWords u.cfg.id5Mode (u.cmd0 :: u.txq) = .ok (i, rest) :=
  ⟨{ fetching [0x2FF] with phase := .setupB, cmd0 := 0x10007FFF }, _, 0x2FF, [], .cmdLatch 0 0x7FFF 0x2FF,
    by unfold Runnable; decide, rfl, by decide, by decide, by decide⟩

theorem test_wit_StepRunsDecodedInstruction_running :
    ∃ (s u : State) (i : Instr), Runnable s ∧ u = beginCycle (hostTurn s) ∧ isSetup u.phase = false ∧ CommandHeld u ∧
      decodeWords u.cfg.id5Mode [u.cmd0, u.cmd1] = .ok (i, []) :=
  ⟨reading, _, .dataOutput 1 0x7F00 0, by unfold Runnable; decide, rfl, by decide, by unfold CommandHeld; decide,
    by decide⟩

theorem test_wit_SetupPopsAndDispatches :
    (isSetup (during .waitRbb .setupB 0x7300).phase = true ∧ (during .waitRbb .setupB 0x7300).txq = []) ∧
    (∃ s : State, s.phase = .setupA ∧ s.txq = [0x10007FFF]) ∧
    (∃ s : State, s.phase = .setupA ∧ s.txq = [0x10007FFF, 0x2FF]) ∧
    (∃ s : State, s.phase = .setupB ∧ s.cmd0 = 0x10007FFF ∧ s.txq = [0x2FF]) :=
  ⟨by decide, ⟨{ during .waitRbb .setupA 0x7300 with txq := [0x10007FFF] }, by decide⟩,
    ⟨{ during .waitRbb .setupA 0x7300 with txq := [0x10007FFF, 0x2FF] }, by decide⟩,
    ⟨{ during .waitRbb .setupB 0x7300 with cmd0 := 0x10007FFF, txq := [0x2FF] }, by decide⟩⟩

theorem test_wit_DispatchLoadsRegisters : isSetup State.reset.phase = true := by decide

theorem test_wit_BitbangEmitsPayload : (during .bitbang .bbEmit 0x7300).phase = .bbEmit := by decide

theorem test_wit_WritePulsePlacement :
    (during .cmdLatch .wPlace 0x7700).phase = .wPlace ∧ (during .dataInput .wPlace 0x7300).txq = [] ∧
    (∃ (i : Instr) (s : State), i.kind = .dataInput ∧ s.phase = .wPlace ∧ s.txq = [0x2FF, 1]) :=
  ⟨by decide, by decide, .dataInput 1 0x7FFF 0, { during .dataInput .wPlace 0x7300 with txq := [0x2FF, 1] }, by decide⟩

theorem test_wit_WritePulseRise :
    isWriteKind (Instr.addrLatch 0 0x7FFF 0).kind = true ∧ (during .addrLatch .wRise 0x5A11).phase = .wRise ∧
    Cfg.default.tHold = 1 ∧ slowCfg.tHold ≠ 1 := by decide

/-- A waiting machine: `TMR` holds `n`. -/
def waiting (k : Kind) (p : Phase) (n : Nat) : State := { during k p 0x5300 with cfg := slowCfg, tmr := n }

theorem test_wit_TimedPhasesWait :
    (1 ≤ (waiting .cmdLatch .wLow 1).tmr ∧ isWriteKind (Instr.cmdLatch 0 0 0).kind = true ∧
      (waiting .cmdLatch .wLow 1).phase = .wLow) ∧
    (1 ≤ (waiting .dataInput .wHigh 2).tmr ∧ isWriteKind (Instr.dataInput 0 0 0).kind = true ∧
      (waiting .dataInput .wHigh 2).phase = .wHigh) ∧
    (1 ≤ (waiting .dataOutput .rLow 1).tmr ∧ (Instr.dataOutput 0 0 0).kind = .dataOutput ∧
      (waiting .dataOutput .rLow 1).phase = .rLow) ∧
    (1 ≤ (waiting .dataOutput .rHigh 1).tmr ∧ (waiting .dataOutput .rHigh 1).phase = .rHigh) := by decide

theorem test_wit_LatchEnableExits :
    (during .cmdLatch .clExit 0x7700).phase = .clExit ∧ (during .addrLatch .alExit 0x7B00).phase = .alExit := by decide

theorem test_wit_ReadPulseFalls : (during .dataOutput .rFall 0x7300).phase = .rFall := by decide

theorem test_wit_ReadSamplePushes :
    (∃ s : State, s.phase = .rSample ∧ s.rxq.length < s.cfg.rxDepth ∧ s.cfg.tHold = 1) ∧
    (∃ s : State, s.phase = .rSample ∧ s.rxq.length < s.cfg.rxDepth ∧ s.cfg.tHold ≠ 1) ∧
    (∃ s : State, s.phase = .rSample ∧ s.rxq.length = s.cfg.rxDepth) :=
  ⟨⟨{ during .dataOutput .rSample 0x3300 with rxq := [1, 2, 3] }, by decide⟩,
    ⟨{ during .dataOutput .rSample 0x3300 with cfg := slowCfg, rxq := [1, 2, 3] }, by decide⟩,
    ⟨{ during .dataOutput .rSample 0x3300 with rxq := [1, 2, 3, 4] }, by decide⟩⟩

theorem test_wit_SignalRaisesFlag : (during .signal .signal 0x7300).phase = .signal := by decide

theorem test_wit_WaitRbbPollsPin :
    (Instr.waitRbbHigh 7 0 0x7FFF 0).kind = .waitRbb ∧ isSetup (during .waitRbb .setupB 0x7300).phase = true ∧
    ((during .waitRbb .waitRbb 0x7300).phase = .waitRbb ∧ (during .waitRbb .waitRbb 0x7300).level 15 = true) ∧
    (∃ s : State, s.phase = .waitRbb ∧ s.level 15 = false) :=
  ⟨by decide, by decide, by decide, { during .waitRbb .waitRbb 0x7300 with env := [0x00A5] }, by decide⟩

theorem test_wit_ForeignPhaseRefused :
    phaseBelongs (Instr.bitbang 0 0x7FFF 0).kind (during .bitbang .rFall 0x7300).phase = false ∧
    phaseBelongs (Instr.cmdLatch 0 0x7FFF 0).kind (during .cmdLatch .alExit 0x7300).phase = false := by decide

theorem test_wit_MachineCycleNeverStops : LegalControl reading := by unfold LegalControl; decide

theorem test_wit_StepKeepsLegalControl : LegalControl reading ∧ atCeiling reading = false := by
  unfold LegalControl; decide

/-- A step of `reading` answers a next state, here named. -/
theorem test_reading_steps : step reading = .next (after reading) := rfl

theorem test_wit_QueueOccupancyStaysBounded :
    (∃ s t : State, QueuesBounded s ∧ step s = .next t) ∧
    (∃ (cfg : Cfg) (ws : List Word) (host : HostAgent) (env : List Pins) (t : State), cfg.valid = true ∧
      Host.Core.run core 1 ({ State.resetWith cfg ws with host := host, env := env } : State) = .next t) :=
  ⟨⟨reading, after reading, by unfold QueuesBounded; decide, rfl⟩,
    ⟨slowCfg, [0x10007FFF, 0x2FF], .driver, quiet, _, by decide, rfl⟩⟩

theorem test_wit_ControlPinsFollowPhase :
    ∃ s t : State, PinsFollowPhase s ∧ step s = .next t ∧ isSetup t.phase = true :=
  ⟨during .cmdLatch .clExit 0x7700, after (during .cmdLatch .clExit 0x7700), by unfold PinsFollowPhase; decide, rfl,
    by decide⟩

theorem test_wit_RunningCommandIsTheDecodedOne : ∃ s t : State, CommandHeld s ∧ isSetup s.phase = false ∧
    step s = .next t :=
  ⟨reading, after reading, by unfold CommandHeld; decide, by decide, rfl⟩

theorem test_wit_ConfigurationIsReadOnly :
    (∃ s t : State, step s = .next t) ∧ (∃ (i : Instr) (s t : State), exec i s = .next t) ∧
    (∃ (a : HostAction) (s t : State), hostAct a s = some t) ∧
    (∃ s t : State, Host.Core.run core 2 s = .next t) :=
  ⟨⟨reading, _, rfl⟩, ⟨.signal 0 0x7FFF 0, during .signal .signal 0x7300, _, rfl⟩, ⟨.push 7, State.reset, _, rfl⟩,
    ⟨reading, _, rfl⟩⟩

theorem test_wit_IrqStickyUntilCleared :
    (∃ s t : State, machineCycle s = .next t ∧ s.irq = true) ∧
    (∃ (a : HostAction) (s t : State), a ≠ .clearIrq ∧ hostAct a s = some t) ∧
    (∃ s t : State, hostAct .clearIrq s = some t) ∧
    (∃ s t : State, s.host = .driver ∧ s.irq = true ∧ step s = .next t) ∧
    (∃ s : State, s.phase = .signal ∧ s.irq = true) :=
  ⟨⟨{ reading with irq := true }, _, rfl, rfl⟩, ⟨.readIrq, reading, _, by decide, rfl⟩, ⟨reading, _, rfl⟩,
    ⟨{ reading with irq := true }, _, rfl, rfl, rfl⟩, ⟨{ during .signal .signal 0x7300 with irq := true }, rfl, rfl⟩⟩

theorem test_wit_EnvironmentReadOnlyWhenSampling : reading.phase ≠ .rSample ∧ reading.phase ≠ .waitRbb := by decide

theorem test_wit_CycleChangesNoTwoStrobes :
    ∃ s t : State, machineCycle s = .next t ∧ t.pindir ≠ s.pindir :=
  ⟨{ fetching [] with txq := [0x10007FFF, 0x2FF] }, _, rfl, by decide⟩

theorem test_wit_CommandStreamOrderKept :
    ∃ s t : State, s.host = .driver ∧ step s = .next t ∧ t.trace ≠ s.trace :=
  ⟨reading, after reading, rfl, rfl, by decide⟩

theorem test_wit_StreamsKeepOrder :
    ∃ s t : State, s.finished = false ∧ step s = .next t ∧ s.received ++ s.rxq = pushedWords s.trace ∧ t.rxq ≠ s.rxq :=
  ⟨during .dataOutput .rSample 0x3300, after (during .dataOutput .rSample 0x3300), rfl, rfl, by decide, by decide⟩

theorem test_wit_TxEmptyStallChangesNothing :
    (∃ s u : State, Runnable s ∧ u = hostTurn s ∧ popsTxq u = true ∧ u.txq = [] ∧ u.phase = .wPlace) ∧
    (∃ s u : State, Runnable s ∧ u = hostTurn s ∧ popsTxq u = true ∧ u.txq = [] ∧ u.phase = .setupB) ∧
    (∃ s u : State, Runnable s ∧ u = hostTurn s ∧ u.phase = .setupA ∧ u.txq = [7]) ∧
    (∃ (s t : State) (sn : Snapshot), s.finished = false ∧ step s = .next t ∧ t.trace = s.trace ++ [sn] ∧
      .stall .txEmpty ∈ sn.events) :=
  ⟨⟨during .addrLatch .wPlace 0x7B00, _, by unfold Runnable; decide, rfl, by decide⟩,
    ⟨during .waitRbb .setupB 0x7300, _, by unfold Runnable; decide, rfl, by decide⟩,
    ⟨fetching [7], _, by unfold Runnable; decide, rfl, by decide⟩,
    ⟨during .addrLatch .wPlace 0x7B00, after (during .addrLatch .wPlace 0x7B00),
      snapshot { during .addrLatch .wPlace 0x7B00 with events := [.stall .txEmpty] }, rfl, rfl, by decide, by decide⟩⟩

theorem test_wit_NothingDivertsARunningCommand :
    (∃ (s : State) (a b : Pins), s.phase ≠ .waitRbb ∧ a ≠ b ∧ ∀ k : Nat, k ≠ 15 → a.getLsbD k = b.getLsbD k) ∧
    (∃ (a : HostAction) (s t : State), hostAct a s = some t) ∧
    (∃ s t : State, isSetup s.phase = false ∧ machineCycle s = .next t) := by
  refine ⟨⟨reading, 0x80A5, 0x00A5, by decide, by decide, ?_⟩, ⟨.push 7, State.reset, _, rfl⟩,
    ⟨reading, _, by decide, rfl⟩⟩
  intro k hk
  by_cases h : k < 16
  · interval_cases k <;> first | rfl | exact absurd rfl hk
  · rw [BitVec.getLsbD_of_ge _ _ (Nat.le_of_not_lt h), BitVec.getLsbD_of_ge _ _ (Nat.le_of_not_lt h)]

theorem test_wit_WaitWakesOnPinOnly :
    Runnable (during .waitRbb .waitRbb 0x7300) ∧ (during .waitRbb .waitRbb 0x7300).phase = .waitRbb ∧
    (during .waitRbb .waitRbb 0x7300).kind = .waitRbb := by unfold Runnable; decide

theorem test_wit_TraceCyclesContiguous :
    (∃ t : State, Host.Core.run core 1 ({ State.resetWith slowCfg [] with host := .script [[.push 7]], env := quiet } :
      State) = .next t ∧ ∃ sn : Snapshot, t.trace[0]? = some sn) ∧
    (∃ s t : State, s.finished = false ∧ step s = .next t ∧ t.finished = false) :=
  ⟨⟨_, rfl, _, rfl⟩, ⟨reading, after reading, by decide, rfl, by decide⟩⟩

theorem test_wit_HostActionsOnlyTouchTheirQueue :
    (∃ s : State, s.txq.length < s.cfg.txDepth) ∧ (∃ s : State, ¬ s.txq.length < s.cfg.txDepth) ∧
    (∃ s : State, s.rxq = [0xA5, 0x5A]) ∧ (∃ s : State, s.rxq = []) :=
  ⟨⟨{ State.reset with txq := [1, 2, 3] }, by decide⟩, ⟨{ State.reset with txq := [1, 2, 3, 4] }, by decide⟩,
    ⟨{ State.reset with rxq := [0xA5, 0x5A] }, rfl⟩, ⟨State.reset, rfl⟩⟩

theorem test_wit_DriverSuppliesDemand :
    (∃ s : State, s.phase = .rSample ∧ s.rxq.length = s.cfg.rxDepth) ∧
    (∃ s : State, s.phase = .rSample ∧ s.rxq.length < s.cfg.rxDepth) ∧ (∃ s : State, s.phase ≠ .rSample) :=
  ⟨⟨{ during .dataOutput .rSample 0x3300 with rxq := [1, 2, 3, 4] }, by decide⟩,
    ⟨{ during .dataOutput .rSample 0x3300 with rxq := [1, 2, 3] }, by decide⟩, ⟨State.reset, by decide⟩⟩

theorem test_wit_BitbangTakesTwoCycles :
    ∃ s : State, DriverReady s ∧ s.pending = encode (.bitbang 0 0x7FFF 0x1A5) ++ [7] ∧
      s.cycle + commandCycles s.cfg .bitbang 1 ≤ s.cfg.maxCycles :=
  ⟨fetching (encode (.bitbang 0 0x7FFF 0x1A5) ++ [7]), by unfold DriverReady; decide, rfl, by decide⟩

theorem test_wit_CmdLatchCycleTable :
    ∃ (s : State) (n : Nat), DriverReady s ∧ s.pending = encode (.cmdLatch 0 0x7FFF 0x2FF) ++ [7] ∧
      s.out.getLsbD 13 = true ∧ n = commandCycles s.cfg .cmdLatch 1 ∧ s.cycle + n ≤ s.cfg.maxCycles ∧
      (0x7FFF#16).getLsbD 10 = true ∧ (0x7FFF#16).getLsbD 13 = true :=
  ⟨fetching (encode (.cmdLatch 0 0x7FFF 0x2FF) ++ [7]), 4, by unfold DriverReady; decide, rfl, by decide, by decide,
    by decide, by decide, by decide⟩

theorem test_wit_AddrLatchSendsEveryPayloadWord :
    ∃ (s : State) (payload : List Word) (n : Nat), DriverReady s ∧
      s.pending = encode (.addrLatch 1 0x7FFF 0) ++ payload ++ [7] ∧ payload.length = (1#12).toNat + 1 ∧
      n = commandCycles s.cfg .addrLatch ((1#12).toNat + 1) ∧ s.cycle + n ≤ s.cfg.maxCycles ∧
      (∀ k : Nat, k < 10 → (0x7FFF#16).getLsbD k = true) :=
  ⟨fetching (encode (.addrLatch 1 0x7FFF 0) ++ [0x211, 0x222] ++ [7]), [0x211, 0x222], 6,
    by unfold DriverReady; decide, rfl, by decide, by decide, by decide, by decide⟩

theorem test_wit_DataInputSendsEveryPayloadWord :
    ∃ (s : State) (payload : List Word) (n : Nat), DriverReady s ∧
      s.pending = encode (.dataInput 0 0x7FFF 0) ++ payload ++ [7] ∧ payload.length = (0#12).toNat + 1 ∧
      n = commandCycles s.cfg .dataInput ((0#12).toNat + 1) ∧ s.cycle + n ≤ s.cfg.maxCycles :=
  ⟨fetching (encode (.dataInput 0 0x7FFF 0) ++ [0x2DE] ++ [7]), [0x2DE], 3,
    by unfold DriverReady; decide, rfl, by decide, by decide, by decide⟩

theorem test_wit_DataOutputReturnsSampledBytes :
    ∃ (s : State) (n : Nat), DriverReady s ∧ s.pending = encode (.dataOutput 1 0x7F00 0) ++ [7] ∧
      n = commandCycles s.cfg .dataOutput ((1#12).toNat + 1) ∧ s.cycle + n ≤ s.cfg.maxCycles :=
  ⟨fetching (encode (.dataOutput 1 0x7F00 0) ++ [7]), 5, by unfold DriverReady; decide, rfl, by decide, by decide⟩

theorem test_wit_SignalTakesTwoCycles :
    ∃ s : State, DriverReady s ∧ s.cfg.id5Mode = .signal ∧ s.pending = encode (.signal 0 0x7FFF 0) ++ [] ∧
      s.cycle + commandCycles s.cfg .signal 1 ≤ s.cfg.maxCycles :=
  ⟨fetching (encode (.signal 0 0x7FFF 0) ++ []), by unfold DriverReady; decide, rfl, rfl, by decide⟩

theorem test_wit_WaitRbbEndsAtFirstReady :
    ∃ (s : State) (i : Instr) (p : Nat), DriverReady s ∧ i.kind = .waitRbb ∧ i.wellFormed s.cfg.id5Mode = true ∧
      i.pinDirections.getLsbD 15 = false ∧ s.pending = encode i ++ [] ∧
      s.cycle + commandCycles s.cfg .waitRbb p ≤ s.cfg.maxCycles ∧ 1 ≤ p ∧
      (∀ j : Nat, 1 ≤ j → j < p → (extAt s (s.cycle + j)).getLsbD 15 = false) ∧
      (extAt s (s.cycle + p)).getLsbD 15 = true := by
  refine ⟨{ fetching (encode (.waitRbbSixSeven 0 0 0x7FFF 0) ++ []) with env := [0, 0, 0x8000] },
    .waitRbbSixSeven 0 0 0x7FFF 0, 2, by unfold DriverReady; decide, rfl, by decide, by decide, rfl, by decide,
    by decide, ?_, by decide⟩
  intro j h1 h2
  obtain rfl : j = 1 := by omega
  decide

theorem test_wit_WaitRbbHasNoTimeout :
    (∃ s : State, s.cfg.valid = true ∧ s.finished = false ∧ s.host = .script [] ∧ s.phase = .waitRbb ∧
      s.kind = .waitRbb ∧ s.pindir.getLsbD 15 = false ∧
      (∀ c : Nat, s.cycle ≤ c → c < s.cycle + 2 → (extAt s c).getLsbD 15 = false)) ∧
    (∃ s : State, s.cfg.valid = true ∧ s.finished = false ∧ s.host = .driver ∧ s.cfg.maxCycles ≤ s.cycle) ∧
    (∃ s : State, s.host = .script [[.pop]]) := by
  refine ⟨⟨{ during .waitRbb .waitRbb 0x7300 with host := .script [], env := [0, 0x7FFF] }, by decide, rfl, rfl, rfl,
    rfl, by decide, ?_⟩, ⟨{ State.reset with cycle := 100000 }, by decide⟩,
    ⟨{ State.reset with host := .script [[.pop]] }, rfl⟩⟩
  intro c _ h2
  have h : c < 2 := h2
  obtain rfl | rfl : c = 0 ∨ c = 1 := by omega
  · decide
  · decide

theorem test_wit_ScenariosTerminate :
    ∃ ws : List Word, assemble .signal (expansion Params.default .reset) = .ok ws :=
  ⟨[0x10007FFF, 0x2FF, 0x60007FFF, 0], by decide⟩

/-- 45_scenarios R243 at its bounds: `ROW_CYCLES = 0` is refused where the address list is not empty, and in `erase` an
empty one is an encoding error first. -/
theorem test_build_ranges :
    build .signal { Params.default with rowCycles := 0 } .read = .error (.paramOutOfRange .rowCycles 0) ∧
    build .signal { Params.default with rowCycles := 0 } .erase = .error (.error (.encodingRange (.count 0))) := by
  decide

/-- 60_exceptions R353: an encoding error of `read_id` is fatal to `read_id` only. -/
theorem test_build_isolated :
    build .signal { Params.default with idLen := 4097 } .readId = .error (.error (.encodingRange (.count 4097))) ∧
    build .signal { Params.default with idLen := 4097 } .reset = build .signal Params.default .reset := by
  decide

theorem test_wit_BuilderChecksParameterRanges :
    (∃ ws : List Word, build .signal Params.default .reset = .ok ws) ∧
    build .signal { Params.default with idLen := 0 } .readId = .error (.error (.encodingRange (.count 0))) :=
  ⟨⟨[0x10007FFF, 0x2FF, 0x60007FFF, 0], by decide⟩, by decide⟩

theorem test_wit_InRangeParametersBuildEveryScenario :
    ∃ p : Params, (1 ≤ p.idLen ∧ p.idLen ≤ 4096) ∧ (1 ≤ p.rowCycles ∧ p.rowCycles ≤ 4096) ∧
      p.colCycles + p.rowCycles ≤ 4096 ∧ (1 ≤ p.readLen ∧ p.readLen ≤ 4096) ∧
      (1 ≤ p.progData.length ∧ p.progData.length ≤ 4096) :=
  ⟨{ Params.default with idLen := 4096, colCycles := 4095, rowCycles := 1, readLen := 1, progData := [0] }, by decide⟩

theorem test_wit_BatchIsolatesScenarios :
    ScenarioName.reset ≠ .readId ∧ ScenarioName.erase ≠ .read ∧ ScenarioName.erase ≠ .program ∧
    ScenarioName.statusRead ≠ .erase := by decide

/-- 20_memory R61, 46_harness R332: each word of the program as 4 bytes, least significant first. -/
theorem test_program_emissions :
    programImage [0x00001234, 0xDEADBEEF] = [0x34, 0x12, 0x00, 0x00, 0xEF, 0xBE, 0xAD, 0xDE] ∧
    (programLiteral [0x1234]).elements = [0x1234] := by decide

theorem test_literal_text :
    (programLiteral [0x1234, 0xE0FF]).render ⟨"[", ", ", "]", "0x", 16⟩ = "[0x1234, 0xe0ff]" := by decide

theorem test_wit_ProgramEmissionsAgree : [0x1234#32, 0xE0FF#32][1]? = some 0xE0FF#32 ∧ 3 < 4 := by decide

theorem test_wit_UnknownScenarioNamed :
    ScenarioName.text .readId = "read_id" ∧ ∀ n : ScenarioName, n.text ≠ "Reset" := by
  refine ⟨rfl, ?_⟩
  intro n
  cases n <;> decide

theorem test_wit_RunStartIsLeast :
    runStart (fun j => decide (2 ≤ j)) 4 ≤ 2 ∧ 1 < runStart (fun j => decide (2 ≤ j)) 4 := by decide

/-- A snapshot with `web` at `w` and the default byte on the bus. -/
def shot (c : Nat) (w : Bool) : Snapshot := ⟨c, ⟨true, w, true, false, true⟩, 0x2FF, 0, 0, false, true, []⟩

/-- Four cycles with one write edge, with `cle` high throughout and the payload from the second cycle on. -/
def edgeTrace : Trace :=
  [⟨0, ⟨true, true, true, false, true⟩, 0x300, 0, 0, false, true, []⟩, shot 1 false, shot 2 true, shot 3 true]

theorem test_wit_VerifierPassesExactlySoundTraces :
    verify Cfg.default 0 0 [] edgeTrace = .ok () ∧ isWriteEdge edgeTrace 2 = true ∧
    cleAt edgeTrace 2 = true := by decide

/-- A read edge: `reb` low, then high. -/
theorem test_wit_VerifierPassesExactlySoundTraces_read :
    isReadEdge [⟨0, ⟨false, true, true, false, false⟩, 0, 0, 0, false, true, []⟩,
      ⟨1, ⟨true, true, true, false, false⟩, 0, 0, 1, false, true, []⟩] 1 = true := by decide

theorem test_wit_FirstFindingIsReported :
    firstFinding [⟨5, 1, .hold⟩, ⟨3, 2, .latchEnableOrder⟩, ⟨3, 0, .setup⟩] = some ⟨3, 0, .setup⟩ := by decide

theorem test_wit_EmitterDropsNothing : firstGap 0 edgeTrace = none ∧ emit edgeTrace = emit edgeTrace :=
  ⟨by decide, rfl⟩

end Sys2Proof.Tests
end

/-! PROOFS. 10_state R34: the configuration is read-only. -/

namespace Sys2Proof.Machine

/-- Everything a host action with a move can be: a push within the depth, a pop of the head of `RXQ`, `IRQ` cleared, or
the state as it is (20_memory R70). -/
theorem hostAct_some_cases (a : HostAction) (s t : State) (h : hostAct a s = some t) :
    (∃ w : Word, a = .push w ∧ s.txq.length < s.cfg.txDepth ∧ t = s.setTxq (s.txq ++ [w])) ∨
    (∃ (w : Word) (rest : List Word), a = .pop ∧ s.rxq = w :: rest ∧
      t = { s with rxq := rest, received := s.received ++ [w] }) ∨
    (a = .clearIrq ∧ t = s.clearIrq) ∨
    (a = .readIrq ∧ t = s) := by
  unfold hostAct at h
  split at h
  case h_1 w =>
    split at h <;> cases h
    next hroom => exact .inl ⟨w, rfl, hroom, rfl⟩
  case h_2 =>
    split at h <;> cases h
    next w rest hq => exact .inr (.inl ⟨w, rest, rfl, hq, rfl⟩)
  case h_3 =>
    cases h
    exact .inr (.inr (.inl ⟨rfl, rfl⟩))
  case h_4 =>
    cases h
    exact .inr (.inr (.inr ⟨rfl, rfl⟩))

/-- No host action writes the configuration. -/
theorem hostAct_cfg (a : HostAction) (s t : State) (h : hostAct a s = some t) : t.cfg = s.cfg := by
  rcases hostAct_some_cases a s t h with ⟨w, -, -, rfl⟩ | ⟨w, rest, -, -, rfl⟩ | ⟨-, rfl⟩ | ⟨-, rfl⟩ <;> rfl

/-- No step writes the configuration: neither the host's turn, nor the cycle of the state machine, nor the end of the
cycle does. -/
theorem step_cfg (s t : State) (h : step s = .next t) : t.cfg = s.cfg := by
  obtain ⟨-, ⟨-, rfl⟩ | ⟨-, -, u, hu, rfl⟩⟩ := step_next_cases s t h
  · rfl
  · calc
      (endCycle u).cfg = u.cfg := endCycle_cfg u
      _ = (beginCycle (hostTurn s)).cfg := (outsideKept_machineCycle _ _ hu).cfg
      _ = (hostTurn s).cfg := beginCycle_cfg _
      _ = s.cfg := (registersKept_hostTurn s).cfg

/-- No run writes the configuration. -/
theorem run_cfg (n : Nat) (s t : State) (h : Host.Core.run core n s = .next t) : t.cfg = s.cfg :=
  run_invariant (fun u => u.cfg = s.cfg) (fun u v hu hv => (step_cfg u v hv).trans hu) n s t rfl h

/-- Settles O29: each clause is the lemma about the function it speaks of. -/
theorem configurationIsReadOnly : Obligations.ConfigurationIsReadOnly :=
  ⟨step_cfg, fun i s t h => (outsideKept_exec i s t h).cfg, hostAct_cfg, run_cfg⟩

end Sys2Proof.Machine

/-! PROOFS. 20_memory R71 and R80: the queues' streams, and the stall on an empty `TXQ`. -/

namespace Sys2Proof.Machine

/-! ### What a cycle's events say about the queues -/

/-- From `s` to `t` the events `es` are recorded, and the queues change exactly as these events say: the words popped
leave the front of `TXQ`, the words pushed join the end of `RXQ`. -/
structure QueueLog (es : List Event) (s t : State) : Prop where
  events : t.events = s.events ++ es
  txq : s.txq = es.filterMap poppedWord ++ t.txq
  rxq : t.rxq = s.rxq ++ es.filterMap pushedWord

theorem QueueLog.trans {es fs : List Event} {s t u : State} (h : QueueLog es s t) (k : QueueLog fs t u) :
    QueueLog (es ++ fs) s u where
  events := by rw [k.events, h.events, List.append_assoc]
  txq := by rw [h.txq, k.txq, List.filterMap_append, List.append_assoc]
  rxq := by rw [k.rxq, h.rxq, List.filterMap_append, List.append_assoc]

/-- Steps that record nothing may follow. -/
theorem QueueLog.thenQuiet {es : List Event} {s t u : State} (h : QueueLog es s t) (k : QueueLog [] t u) :
    QueueLog es s u := by
  simpa using h.trans k

/-- A state with the same queues and event list records nothing. -/
theorem queueLog_nil {s t : State} (he : t.events = s.events) (ht : t.txq = s.txq) (hr : t.rxq = s.rxq) :
    QueueLog [] s t :=
  ⟨by simp [he], by simp [ht], by simp [hr]⟩

theorem queueLog_goto (p : Phase) (s : State) : QueueLog [] s (s.goto p) := queueLog_nil rfl rfl rfl

theorem queueLog_setOut (o : Pins) (s : State) : QueueLog [] s (s.setOut o) := queueLog_nil rfl rfl rfl

theorem queueLog_setTmr (n : Nat) (s : State) : QueueLog [] s (s.setTmr n) := queueLog_nil rfl rfl rfl

theorem queueLog_raiseIrq (s : State) : QueueLog [] s s.raiseIrq := queueLog_nil rfl rfl rfl

/-- An event that tells of no queue. -/
theorem queueLog_record (e : Event) (s : State) (hp : poppedWord e = none) (hq : pushedWord e = none) :
    QueueLog [e] s (s.record e) :=
  ⟨rfl, by simp [hp], by simp [hq]⟩

/-- The pop of the head of `TXQ`. -/
theorem queueLog_pop (w : Word) (rest : List Word) (s : State) (h : s.txq = w :: rest) :
    QueueLog [.pop w] s ((s.setTxq rest).record (.pop w)) :=
  ⟨rfl, by simp [h, poppedWord], by simp [pushedWord]⟩

theorem queueLog_loadCmd0 (w : Word) (rest : List Word) (s : State) (h : s.txq = w :: rest) :
    QueueLog [.pop w] s (loadCmd0 w rest s) :=
  ⟨rfl, by simp [h, poppedWord], by simp [pushedWord]⟩

/-- The push of a sampled byte at the end of `RXQ`. -/
theorem queueLog_push (b : Byte) (s : State) :
    QueueLog [.readSample b] s ((s.setRxq (s.rxq ++ [d8Word b])).record (.readSample b)) :=
  ⟨rfl, by simp [poppedWord], by simp [pushedWord]⟩

theorem queueLog_dispatch (k : Kind) (id : BitVec 4) (tc : BitVec 12) (pd : BitVec 16) (c1 : Word) (s : State) :
    QueueLog [.dispatch k id] s (dispatch k id tc pd c1 s) :=
  ⟨rfl, by simp [poppedWord], by simp [pushedWord]⟩

theorem queueLog_loopBack (first exit : Phase) (s : State) : QueueLog [] s (loopBack first exit s) := by
  rcases loopBack_cases first exit s with ⟨-, h⟩ | ⟨-, h⟩ <;> rw [h] <;> exact queueLog_nil rfl rfl rfl

theorem queueLog_startTimed (t : Nat) (wait : Phase) (next : State → State) (s : State)
    (hn : ∀ u : State, QueueLog [] u (next u)) : QueueLog [] s (startTimed t wait next s) := by
  rcases startTimed_cases t wait next s with ⟨-, h⟩ | ⟨-, h⟩ <;> rw [h]
  · exact (queueLog_setTmr 0 s).thenQuiet (hn _)
  · exact queueLog_nil rfl rfl rfl

theorem queueLog_waitTimed (wait : Phase) (next : State → State) (s : State)
    (hn : ∀ u : State, QueueLog [] u (next u)) : QueueLog [] s (waitTimed wait next s) := by
  rcases waitTimed_cases wait next s with ⟨-, h⟩ | ⟨-, h⟩ <;> rw [h]
  · exact (queueLog_setTmr 0 s).thenQuiet (hn _)
  · exact queueLog_nil rfl rfl rfl

theorem queueLog_placePayload (p : Word) (s : State) : QueueLog [.placement] s (placePayload p s) :=
  ((queueLog_setOut _ s).trans (queueLog_record .placement _ rfl rfl)).thenQuiet
    (queueLog_startTimed _ _ _ _ fun u => queueLog_goto .wRise u)

/-- `W_PLACE` with a popped payload stalls on an empty `TXQ`, or pops the head and places it. -/
theorem queueLog_placeFromTxq (s : State) :
    QueueLog [.stall .txEmpty] s (placeFromTxq s) ∨
    (∃ p : Word, QueueLog [.pop p, .placement] s (placeFromTxq s)) := by
  rcases placeFromTxq_cases s with ⟨-, h⟩ | ⟨p, rest, hq, h⟩ <;> rw [h]
  · exact .inl (queueLog_record _ s rfl rfl)
  · exact .inr ⟨p, (queueLog_pop p rest s hq).trans (queueLog_placePayload p _)⟩

theorem queueLog_latchPulse (after : State → State) (s : State) (ha : ∀ u : State, QueueLog [] u (after u)) :
    QueueLog [.latchPulse s.kind] s (latchPulse after s) :=
  ((queueLog_setOut _ s).trans (queueLog_record (.latchPulse s.kind) _ rfl rfl)).thenQuiet
    (queueLog_startTimed _ _ _ _ ha)

/-- `R_SAMPLE` stalls on a full `RXQ`, or pushes the word of the byte it samples. -/
theorem queueLog_readSample (s : State) :
    QueueLog [.stall .rxFull] s (readSample s) ∨ QueueLog [.readSample s.sampledByte] s (readSample s) := by
  rcases readSample_cases s with ⟨-, h⟩ | ⟨-, h⟩ <;> rw [h]
  · exact .inl (queueLog_record _ s rfl rfl)
  · exact .inr (((queueLog_push _ s).thenQuiet (queueLog_setOut _ _)).thenQuiet
      (queueLog_startTimed _ _ _ _ fun u => queueLog_loopBack _ _ u))

theorem queueLog_pollReady (s : State) : QueueLog [.rbbReady] s (pollReady s) ∨ QueueLog [] s (pollReady s) := by
  rcases pollReady_cases s with ⟨-, h⟩ | ⟨-, h⟩ <;> rw [h]
  · exact .inl ((queueLog_record _ s rfl rfl).thenQuiet (queueLog_goto _ _))
  · exact .inr (queueLog_goto _ s)

/-! ### One cycle -/

/-- The cycle from `s` to `t` changes the queues as its events say, and none of these is a stall on an empty `TXQ`
unless `stalls` holds. -/
def QueueLogStallingOnlyIf (stalls : Prop) (s t : State) : Prop :=
  ∃ es : List Event, QueueLog es s t ∧ (.stall .txEmpty ∈ es → stalls)

theorem QueueLog.withoutStall {es : List Event} {s t : State} (h : QueueLog es s t) (stalls : Prop)
    (hs : .stall .txEmpty ∉ es) : QueueLogStallingOnlyIf stalls s t :=
  ⟨es, h, fun hm => absurd hm hs⟩

theorem queueLogStallingOnlyIf_placeFromTxq (stalls : Prop) (s : State) (hs : stalls) :
    QueueLogStallingOnlyIf stalls s (placeFromTxq s) := by
  rcases queueLog_placeFromTxq s with h | ⟨p, h⟩ <;> exact ⟨_, h, fun _ => hs⟩

/-- A cycle that dispatches a command. -/
theorem queueLogStallingOnlyIf_dispatch (stalls : Prop) (k : Kind) (id : BitVec 4) (tc : BitVec 12) (pd : BitVec 16)
    (c1 : Word) (s t : State) (h : QueueLog [] (dispatch k id tc pd c1 s) t) : QueueLogStallingOnlyIf stalls s t :=
  ((queueLog_dispatch k id tc pd c1 s).thenQuiet h).withoutStall _ (by simp)

theorem queueLogStallingOnlyIf_waitRbbCycle (stalls : Prop) (id : BitVec 4) (tc : BitVec 12) (pd : BitVec 16)
    (c1 : Word) (s t : State) (h : waitRbbCycle id tc pd c1 s = .next t) : QueueLogStallingOnlyIf stalls s t := by
  unfold waitRbbCycle at h
  split at h <;> cases h
  · exact queueLogStallingOnlyIf_dispatch _ _ _ _ _ _ _ _ (queueLog_goto _ _)
  · exact queueLogStallingOnlyIf_dispatch _ _ _ _ _ _ _ _ (queueLog_goto _ _)
  · rcases queueLog_pollReady s with h | h <;> exact h.withoutStall _ (by simp)

/-- A cycle of a command changes the queues as its events say, and stalls on an empty `TXQ` only as `W_PLACE` of
`addr_latch` or `data_input`. -/
theorem exec_queueLog (i : Instr) (s t : State) (h : exec i s = .next t) :
    QueueLogStallingOnlyIf (s.phase = .wPlace ∧ (i.kind = .addrLatch ∨ i.kind = .dataInput)) s t := by
  cases i with
  | bitbang tc pd c1 =>
    simp only [exec, execBitbang] at h
    split at h <;> cases h
    · exact queueLogStallingOnlyIf_dispatch _ _ _ _ _ _ _ _ (queueLog_goto _ _)
    · exact queueLogStallingOnlyIf_dispatch _ _ _ _ _ _ _ _ (queueLog_goto _ _)
    · exact (((queueLog_setOut _ s).trans (queueLog_record .placement _ rfl rfl)).thenQuiet
        (queueLog_goto _ _)).withoutStall _ (by simp)
  | cmdLatch tc pd c1 =>
    simp only [exec, execCmdLatch] at h
    split at h <;> cases h
    · exact queueLogStallingOnlyIf_dispatch _ _ _ _ _ _ _ _ ((queueLog_setOut _ _).thenQuiet (queueLog_goto _ _))
    · exact queueLogStallingOnlyIf_dispatch _ _ _ _ _ _ _ _ ((queueLog_setOut _ _).thenQuiet (queueLog_goto _ _))
    · exact (queueLog_placePayload _ s).withoutStall _ (by simp)
    · exact (queueLog_waitTimed _ _ s fun u => queueLog_goto _ u).withoutStall _ (by simp)
    · exact (queueLog_latchPulse _ s fun u => queueLog_goto _ u).withoutStall _ (by simp)
    · exact (queueLog_waitTimed _ _ s fun u => queueLog_goto _ u).withoutStall _ (by simp)
    · exact ((queueLog_setOut _ s).thenQuiet (queueLog_goto _ _)).withoutStall _ (by simp)
  | addrLatch tc pd c1 =>
    simp only [exec, execAddrLatch] at h
    split at h <;> cases h
    · exact queueLogStallingOnlyIf_dispatch _ _ _ _ _ _ _ _ ((queueLog_setOut _ _).thenQuiet (queueLog_goto _ _))
    · exact queueLogStallingOnlyIf_dispatch _ _ _ _ _ _ _ _ ((queueLog_setOut _ _).thenQuiet (queueLog_goto _ _))
    · exact queueLogStallingOnlyIf_placeFromTxq _ s ⟨‹_›, .inl rfl⟩
    · exact (queueLog_waitTimed _ _ s fun u => queueLog_goto _ u).withoutStall _ (by simp)
    · exact (queueLog_latchPulse _ s fun u => queueLog_loopBack _ _ u).withoutStall _ (by simp)
    · exact (queueLog_waitTimed _ _ s fun u => queueLog_loopBack _ _ u).withoutStall _ (by simp)
    · exact ((queueLog_setOut _ s).thenQuiet (queueLog_goto _ _)).withoutStall _ (by simp)
  | dataOutput tc pd c1 =>
    simp only [exec, execDataOutput] at h
    split at h <;> cases h
    · exact queueLogStallingOnlyIf_dispatch _ _ _ _ _ _ _ _ (queueLog_goto _ _)
    · exact queueLogStallingOnlyIf_dispatch _ _ _ _ _ _ _ _ (queueLog_goto _ _)
    · exact ((queueLog_setOut _ s).thenQuiet
        (queueLog_startTimed _ _ _ _ fun u => queueLog_goto _ u)).withoutStall _ (by simp)
    · exact (queueLog_waitTimed _ _ s fun u => queueLog_goto _ u).withoutStall _ (by simp)
    · rcases queueLog_readSample s with h | h <;> exact h.withoutStall _ (by simp)
    · exact (queueLog_waitTimed _ _ s fun u => queueLog_loopBack _ _ u).withoutStall _ (by simp)
  | dataInput tc pd c1 =>
    simp only [exec, execDataInput] at h
    split at h <;> cases h
    · exact queueLogStallingOnlyIf_dispatch _ _ _ _ _ _ _ _ (queueLog_goto _ _)
    · exact queueLogStallingOnlyIf_dispatch _ _ _ _ _ _ _ _ (queueLog_goto _ _)
    · exact queueLogStallingOnlyIf_placeFromTxq _ s ⟨‹_›, .inr rfl⟩
    · exact (queueLog_waitTimed _ _ s fun u => queueLog_goto _ u).withoutStall _ (by simp)
    · exact (queueLog_latchPulse _ s fun u => queueLog_loopBack _ _ u).withoutStall _ (by simp)
    · exact (queueLog_waitTimed _ _ s fun u => queueLog_loopBack _ _ u).withoutStall _ (by simp)
  | signal tc pd c1 =>
    simp only [exec, execSignal] at h
    split at h <;> cases h
    · exact queueLogStallingOnlyIf_dispatch _ _ _ _ _ _ _ _ (queueLog_goto _ _)
    · exact queueLogStallingOnlyIf_dispatch _ _ _ _ _ _ _ _ (queueLog_goto _ _)
    · exact (((queueLog_raiseIrq s).trans (queueLog_record .signalRaised _ rfl rfl)).thenQuiet
        (queueLog_goto _ _)).withoutStall _ (by simp)
  | waitRbbFive tc pd c1 => exact queueLogStallingOnlyIf_waitRbbCycle _ _ _ _ _ _ _ h
  | waitRbbSixSeven low tc pd c1 => exact queueLogStallingOnlyIf_waitRbbCycle _ _ _ _ _ _ _ h
  | waitRbbHigh low tc pd c1 => exact queueLogStallingOnlyIf_waitRbbCycle _ _ _ _ _ _ _ h

/-- The steps that need a word of `TXQ` (20_memory R80). -/
theorem popsTxq_iff (s : State) :
    popsTxq s = true ↔
      s.phase = .setupA ∨ s.phase = .setupB ∨
        (s.phase = .wPlace ∧ (s.kind = .addrLatch ∨ s.kind = .dataInput)) := by
  unfold popsTxq
  cases s.phase <;> simp [isSetup]

/-- A cycle of the state machine changes the queues as its events say, and stalls on an empty `TXQ` only where it needs
a word (20_memory R80). -/
theorem machineCycle_queueLog (s t : State) (h : machineCycle s = .next t) :
    QueueLogStallingOnlyIf (popsTxq s = true) s t := by
  have hpops := popsTxq_iff s
  unfold machineCycle at h
  rcases fetch_cases s with ⟨hp, -, hf⟩ | ⟨w, hp, hq, hf⟩ | ⟨w, v, rest, hp, hq, hf⟩ | ⟨hp, -, hf⟩ |
    ⟨v, rest, hp, hq, hf⟩ | ⟨-, -, hf⟩ <;> rw [hf] at h
  · cases h
    exact ⟨_, queueLog_record _ s rfl rfl, fun _ => hpops.mpr (.inl hp)⟩
  · cases h
    exact ⟨_, (queueLog_loadCmd0 w [] s hq).trans (queueLog_record _ _ rfl rfl), fun _ => hpops.mpr (.inl hp)⟩
  · obtain ⟨es, hes, -⟩ := exec_queueLog _ _ _ h
    exact ⟨_, ((queueLog_loadCmd0 w (v :: rest) s hq).trans (queueLog_pop v rest _ rfl)).trans hes,
      fun _ => hpops.mpr (.inl hp)⟩
  · cases h
    exact ⟨_, queueLog_record _ s rfl rfl, fun _ => hpops.mpr (.inr (.inl hp))⟩
  · obtain ⟨es, hes, -⟩ := exec_queueLog _ _ _ h
    exact ⟨_, (queueLog_pop v rest s hq).trans hes, fun _ => hpops.mpr (.inr (.inl hp))⟩
  · obtain ⟨es, hes, hstall⟩ := exec_queueLog _ _ _ h
    rw [kind_inFlight] at hstall
    exact ⟨es, hes, fun hm => hpops.mpr (.inr (.inr (hstall hm)))⟩

/-! ### The host's side of the queues -/

/-- What a host may do to the streams (20_memory R71): words join the end of `TXQ`, and words from the front of `RXQ`
join the end of what has been read. -/
structure HostStreams (s t : State) : Prop where
  txq : ∃ pushed : List Word, t.txq = s.txq ++ pushed
  rxq : ∃ read : List Word, t.received = s.received ++ read ∧ s.rxq = read ++ t.rxq

theorem HostStreams.of_eq {s t : State} (ht : t.txq = s.txq) (hr : t.rxq = s.rxq) (hc : t.received = s.received) :
    HostStreams s t :=
  ⟨⟨[], by simp [ht]⟩, [], by simp [hc], by simp [hr]⟩

theorem HostStreams.trans {s t u : State} (h : HostStreams s t) (k : HostStreams t u) : HostStreams s u := by
  obtain ⟨⟨p, hp⟩, r, hr, hrx⟩ := h
  obtain ⟨⟨q, hq⟩, r', hr', hrx'⟩ := k
  exact ⟨⟨p ++ q, by rw [hq, hp, List.append_assoc]⟩, r ++ r', by rw [hr', hr, List.append_assoc],
    by rw [hrx, hrx', List.append_assoc]⟩

/-- What was read and what waits is the same stream before and after. -/
theorem HostStreams.received_append_rxq {s t : State} (h : HostStreams s t) :
    t.received ++ t.rxq = s.received ++ s.rxq := by
  obtain ⟨-, r, hr, hrx⟩ := h
  rw [hr, hrx, List.append_assoc]

theorem hostStreams_hostAct (a : HostAction) (s t : State) (h : hostAct a s = some t) : HostStreams s t := by
  rcases hostAct_some_cases a s t h with ⟨w, -, -, rfl⟩ | ⟨w, rest, -, hq, rfl⟩ | ⟨-, rfl⟩ | ⟨-, rfl⟩
  · exact ⟨⟨[w], rfl⟩, [], by simp, rfl⟩
  · exact ⟨⟨[], by simp⟩, [w], rfl, hq⟩
  · exact .of_eq rfl rfl rfl
  · exact .of_eq rfl rfl rfl

theorem hostStreams_drain (s : State) : HostStreams s (drain s) :=
  ⟨⟨[], by simp [drain]⟩, s.rxq, rfl, by simp [drain]⟩

theorem hostStreams_servicePop (s : State) : HostStreams s (servicePop s) := by
  obtain ⟨p, hp, -⟩ := feed_spec (min (demand s) s.cfg.txDepth) s.txq s.pending
  exact ⟨⟨p, hp⟩, [], by simp [servicePop], rfl⟩

theorem hostStreams_servicePush (s : State) : HostStreams s (servicePush s) := by
  unfold servicePush
  split
  · exact hostStreams_drain s
  · exact .of_eq rfl rfl rfl

/-- No host does more to the streams than 20_memory R71 allows. -/
theorem hostStreams_hostTurn (s : State) : HostStreams s (hostTurn s) :=
  hostTurn_induct HostStreams (fun _ => .of_eq rfl rfl rfl) (fun _ _ _ => HostStreams.trans) hostStreams_hostAct
    hostStreams_servicePop hostStreams_servicePush (fun _ _ => .of_eq rfl rfl rfl) s

/-! ### The end of a cycle and the whole step -/

/-- The two ends of a cycle: the driver's last one, with the final drain, or the move to the next cycle (46_harness R293
to R295). -/
theorem endCycle_cases (s : State) :
    (isDriver s.host = true ∧ done s = true ∧
      endCycle s = { drain { s with trace := s.trace ++ [snapshot s] } with finished := true }) ∨
    ((isDriver s.host && done s) = false ∧
      endCycle s = { s with trace := s.trace ++ [snapshot s], cycle := s.cycle + 1, env := s.env.tail }) := by
  unfold endCycle
  split
  · next h =>
    obtain ⟨hd, hn⟩ := Bool.and_eq_true_iff.mp h
    exact .inl ⟨hd, hn, rfl⟩
  · next h => exact .inr ⟨Bool.eq_false_of_not_eq_true h, rfl⟩

/-- The final drain reads `RXQ` as a host does; no other end of a cycle touches the queues. -/
theorem hostStreams_endCycle (s : State) : HostStreams s (endCycle s) := by
  rcases endCycle_cases s with ⟨-, -, h⟩ | ⟨-, h⟩ <;> rw [h]
  · exact (hostStreams_drain s).trans (.of_eq rfl rfl rfl)
  · exact .of_eq rfl rfl rfl

/-- A step of an unfinished run is a cycle of the state machine between the host's turn and the snapshot. -/
theorem step_next_unfinished (s t : State) (hf : s.finished = false) (h : step s = .next t) :
    ∃ u : State, machineCycle (beginCycle (hostTurn s)) = .next u ∧ t = endCycle u := by
  obtain ⟨-, ⟨hf', -⟩ | ⟨-, -, hu⟩⟩ := step_next_cases s t h
  · simp [hf] at hf'
  · exact hu

/-- A cycle of the state machine leaves the trace as the host's turn found it. -/
theorem trace_of_cycle (s u : State) (h : machineCycle (beginCycle (hostTurn s)) = .next u) : u.trace = s.trace :=
  (outsideKept_machineCycle _ _ h).trace.trans (registersKept_hostTurn s).trace

@[simp] theorem snapshot_events (s : State) : (snapshot s).events = s.events := rfl

theorem poppedWords_snoc (tr : Trace) (sn : Snapshot) :
    poppedWords (tr ++ [sn]) = poppedWords tr ++ sn.events.filterMap poppedWord := by
  simp [poppedWords, traceEvents]

theorem pushedWords_snoc (tr : Trace) (sn : Snapshot) :
    pushedWords (tr ++ [sn]) = pushedWords tr ++ sn.events.filterMap pushedWord := by
  simp [pushedWords, traceEvents]

/-- The words a cycle adds to the popped words of the trace are those that leave the front of `TXQ`. -/
theorem cycle_popped (v u : State) (hv : v.events = []) (h : machineCycle v = .next u) :
    poppedWords (endCycle u).trace ++ (endCycle u).txq = poppedWords v.trace ++ v.txq := by
  obtain ⟨es, hes, -⟩ := machineCycle_queueLog v u h
  have hue : (snapshot u).events = es := by simpa [hv] using hes.events
  rw [endCycle_trace, endCycle_txq, poppedWords_snoc, hue, (outsideKept_machineCycle _ _ h).trace, List.append_assoc,
    ← hes.txq]

/-- When the words read and waiting are the sampled words of the trace, they are so after the cycle. -/
theorem cycle_pushed (v u : State) (hv : v.events = []) (h : machineCycle v = .next u)
    (hs : v.received ++ v.rxq = pushedWords v.trace) :
    (endCycle u).received ++ (endCycle u).rxq = pushedWords (endCycle u).trace := by
  obtain ⟨es, hes, -⟩ := machineCycle_queueLog v u h
  have hue : (snapshot u).events = es := by simpa [hv] using hes.events
  have kept := outsideKept_machineCycle _ _ h
  rw [(hostStreams_endCycle u).received_append_rxq, kept.received, hes.rxq, ← List.append_assoc, hs, endCycle_trace,
    pushedWords_snoc, hue, kept.trace]

/-- Settles O38: the host's turn, the cycle and the end of the cycle each keep both streams. -/
theorem streamsKeepOrder : Obligations.StreamsKeepOrder := by
  intro s t hf h
  obtain ⟨u, hu, rfl⟩ := step_next_unfinished s t hf h
  have turn := hostStreams_hostTurn s
  have htrace : (beginCycle (hostTurn s)).trace = s.trace := (registersKept_hostTurn s).trace
  refine ⟨?_, ?_, ?_⟩
  · obtain ⟨pushed, hp⟩ := turn.txq
    have hpop := cycle_popped _ u rfl hu
    rw [htrace, beginCycle_txq, hp] at hpop
    exact ⟨pushed, hp, hpop⟩
  · obtain ⟨r, hr, -⟩ := turn.rxq
    obtain ⟨d, hd, -⟩ := (hostStreams_endCycle u).rxq
    have hkept : u.received = (hostTurn s).received := (outsideKept_machineCycle _ _ hu).received
    exact ⟨r ++ d, by rw [hd, hkept, hr, List.append_assoc]⟩
  · intro hs
    refine cycle_pushed _ u rfl hu ?_
    rw [htrace, ← hs]
    exact turn.received_append_rxq

/-! ### The stall on an empty `TXQ` (20_memory R80) -/

theorem Frame.trans {ch ch₁ ch₂ : List Reg} {s t u : State} (h : Frame ch₁ s t) (k : Frame ch₂ t u)
    (h₁ : ch₁ ⊆ ch) (h₂ : ch₂ ⊆ ch) : Frame ch s u := by
  intro r hr
  have hst := h r fun hm => hr (h₁ hm)
  have htu := k r fun hm => hr (h₂ hm)
  cases r <;> exact Eq.trans htu hst

/-- The end of a cycle writes nothing but the trace, the cycle index, the environment and, in the final drain, `RXQ`,
what was read and the mark that the run is over. -/
theorem frame_endCycle (s : State) : Frame [.trace, .cycle, .env, .rxq, .received, .finished] s (endCycle s) := by
  rw [frame_iff]
  simp

/-- A cycle that is not the driver's last one only moves on to the next. -/
theorem frame_endCycle_of_not_done (s : State) (h : done s = false) :
    Frame [.trace, .cycle, .env] s (endCycle s) := by
  rcases endCycle_cases s with ⟨-, hd, -⟩ | ⟨-, he⟩
  · simp [h] at hd
  · rw [he, frame_iff]
    simp

/-- An end of a cycle that does not end the run counts the cycle and leaves `RXQ`. -/
theorem endCycle_counts (s : State) (h : (endCycle s).finished = false) :
    (endCycle s).cycle = s.cycle + 1 ∧ (endCycle s).rxq = s.rxq := by
  rcases endCycle_cases s with ⟨-, -, he⟩ | ⟨-, he⟩ <;> rw [he] at h ⊢
  · cases h
  · exact ⟨rfl, rfl⟩

/-- A runnable step is the cycle of the state machine on the state the host left. -/
theorem step_of_machineCycle (s u : State) (hr : Runnable s) (h : machineCycle (beginCycle (hostTurn s)) = .next u) :
    step s = .next (endCycle u) := by
  obtain ⟨hv, hf, hc⟩ := hr
  simp [step, hv, hf, hc, h]

/-- The `W_PLACE` cycle of the command in flight when its payload comes from `TXQ`. -/
theorem exec_inFlight_place (s : State) (hp : s.phase = .wPlace) (hk : s.kind = .addrLatch ∨ s.kind = .dataInput) :
    exec s.inFlight s = .next (placeFromTxq s) := by
  rcases hk with hk | hk
  · simp [State.inFlight, hk, exec, execAddrLatch, hp]
  · simp [State.inFlight, hk, exec, execDataInput, hp]

/-- A cycle that needs a word from an empty `TXQ` records the stall and nothing else. -/
theorem machineCycle_of_txEmpty (s : State) (hp : popsTxq s = true) (hq : s.txq = []) :
    machineCycle s = .next (s.record (.stall .txEmpty)) := by
  rcases (popsTxq_iff s).mp hp with hp | hp | ⟨hp, hk⟩
  · simp [machineCycle, fetch, hp, hq, State.stalled_eq]
  · simp [machineCycle, fetch, fetchCmd1, hp, hq, State.stalled_eq]
  · have hx := exec_inFlight_place s hp hk
    simpa [machineCycle, fetch, hp, placeFromTxq, hq, State.stalled_eq] using hx

/-- A SETUP_A cycle with one word keeps it in `CMD0` and stalls on the second pop (40_dispatch R144). -/
theorem machineCycle_of_one_word (s : State) (w : Word) (hp : s.phase = .setupA) (hq : s.txq = [w]) :
    machineCycle s = .next ((loadCmd0 w [] s).record (.stall .txEmpty)) := by
  simp [machineCycle, fetch, fetchCmd1, hp, hq, State.stalled_eq]

/-- A step that needs a word from an empty `TXQ` (20_memory R80). -/
theorem step_of_txEmpty (s : State) (hr : Runnable s) (hp : popsTxq (hostTurn s) = true)
    (hq : (hostTurn s).txq = []) :
    step s = .next (endCycle ((beginCycle (hostTurn s)).record (.stall .txEmpty))) :=
  step_of_machineCycle s _ hr (machineCycle_of_txEmpty _ hp hq)

/-- A step whose snapshot holds the stall is one that needs a word from `TXQ`. -/
theorem popsTxq_of_txEmpty_stall (s t : State) (sn : Snapshot) (hf : s.finished = false) (h : step s = .next t)
    (ht : t.trace = s.trace ++ [sn]) (hm : .stall .txEmpty ∈ sn.events) : popsTxq (hostTurn s) = true := by
  obtain ⟨u, hu, rfl⟩ := step_next_unfinished s t hf h
  rw [endCycle_trace, trace_of_cycle s u hu] at ht
  obtain rfl : snapshot u = sn := by simpa using ht
  obtain ⟨es, hes, hstall⟩ := machineCycle_queueLog _ u hu
  have hue : (snapshot u).events = es := by simpa using hes.events
  exact hstall (hue ▸ hm)

/-- Settles O12: the stalled cycle and SETUP_A's partial pop as lemmas about `machineCycle`, followed by the end of the
cycle, which ends the run at most in the first case, since SETUP_B is never `done`. -/
theorem txEmptyStallChangesNothing : Obligations.TxEmptyStallChangesNothing := by
  refine ⟨?_, ?_, popsTxq_of_txEmpty_stall⟩
  · rintro s u hr rfl hp hq
    have kept := registersKept_hostTurn s
    have hframe : Frame [.events] (hostTurn s) ((beginCycle (hostTurn s)).record (.stall .txEmpty)) := by
      rw [frame_iff]
      simp
    refine ⟨_, _, step_of_txEmpty s hr hp hq, by rw [endCycle_trace]; exact congrArg (· ++ _) kept.trace, kept.cycle,
      rfl, ?_, (hostStreams_endCycle _).received_append_rxq, hframe.trans (frame_endCycle _) (by simp) (by simp)⟩
    intro hf
    obtain ⟨hc, hx⟩ := endCycle_counts _ hf
    exact ⟨hc.trans (congrArg (· + 1) kept.cycle), hx⟩
  · rintro s u w hr rfl hp hq
    have kept := registersKept_hostTurn s
    have hcycle := machineCycle_of_one_word (beginCycle (hostTurn s)) w hp hq
    have hframe : Frame [.cmd0, .txq, .phase, .events] (hostTurn s)
        ((loadCmd0 w [] (beginCycle (hostTurn s))).record (.stall .txEmpty)) := by
      rw [frame_iff]
      simp
    have hnot : done ((loadCmd0 w [] (beginCycle (hostTurn s))).record (.stall .txEmpty)) = false := by
      simp [done]
    exact ⟨_, _, step_of_machineCycle s _ hr hcycle, by rw [endCycle_trace]; exact congrArg (· ++ _) kept.trace, rfl,
      by simp, by simp, by simp, hframe.trans (frame_endCycle_of_not_done _ hnot) (by simp) (by simp)⟩

end Sys2Proof.Machine

/-! PROOFS. 30_encoding R119: the codec reproduces its input. -/

namespace Sys2Proof.Machine

/-! ### The checks of `encode` (30_encoding R112) -/

theorem firstBadItem_eq_none_iff (k : Nat) (payload : List Nat) :
    firstBadItem k payload = none ↔ ∀ v ∈ payload, v ≤ 1023 := by
  induction payload generalizing k with
  | nil => simp [firstBadItem]
  | cons v vs ih => by_cases hv : v ≤ 1023 <;> simp [firstBadItem, hv, ih]

/-- `encode` refuses nothing exactly when each of its five checks passes. -/
theorem encodeCheck_eq_none_iff (id tc pd : Nat) (payload : List Nat) :
    encodeCheck id tc pd payload = none ↔
      id ≤ 15 ∧ tc ≤ 4095 ∧ pd ≤ 0xFFFF ∧ payload.length = paylen id tc ∧ ∀ v ∈ payload, v ≤ 1023 := by
  rw [← firstBadItem_eq_none_iff 0]
  unfold encodeCheck
  split_ifs <;> simp_all

/-- An input that passes the checks is encoded. -/
theorem encodeFrame_of_check (id tc pd : Nat) (payload : List Nat) (h : encodeCheck id tc pd payload = none) :
    encodeFrame id tc pd payload = .ok (encodeResult id tc pd payload) := by
  simp [encodeFrame, h]

/-! ### The words `encode` writes -/

/-- The first word `encode` writes. -/
def inputHead (id tc pd : Nat) : Word := cmd0Word (BitVec.ofNat 4 id) (BitVec.ofNat 12 tc) (BitVec.ofNat 16 pd)

theorem cmdIdField_inputHead (id tc pd : Nat) (hid : id ≤ 15) : (cmdIdField (inputHead id tc pd)).toNat = id := by
  rw [inputHead, cmdIdField_cmd0Word, BitVec.toNat_ofNat]
  omega

theorem transferCountField_inputHead (id tc pd : Nat) (htc : tc ≤ 4095) :
    (transferCountField (inputHead id tc pd)).toNat = tc := by
  rw [inputHead, transferCountField_cmd0Word, BitVec.toNat_ofNat]
  omega

theorem pinDirectionsField_inputHead (id tc pd : Nat) (hpd : pd ≤ 0xFFFF) :
    (pinDirectionsField (inputHead id tc pd)).toNat = pd := by
  rw [inputHead, pinDirectionsField_cmd0Word, BitVec.toNat_ofNat]
  omega

/-- A payload item in range survives the word it is carried in. -/
theorem p10Field_ofNat_toNat (v : Nat) (hv : v ≤ 1023) : (p10Field (BitVec.ofNat 32 v)).toNat = v := by
  rw [p10Field, BitVec.extractLsb'_toNat, BitVec.toNat_ofNat, Nat.shiftRight_zero]
  omega

theorem payload_readback (payload : List Nat) (hitems : ∀ v ∈ payload, v ≤ 1023) :
    ((payload.map (BitVec.ofNat 32)).map p10Field).map BitVec.toNat = payload := by
  rw [List.map_map, List.map_map]
  exact (List.map_congr_left fun v hv => p10Field_ofNat_toNat v (hitems v hv)).trans (List.map_id payload)

/-- For ids 0 and 1 the payload is cmd_1 itself. -/
theorem encodeResult_payload_in_cmd1 (id tc pd : Nat) (payload : List Nat) (hid : id = 0 ∨ id = 1) :
    encodeResult id tc pd payload = inputHead id tc pd :: payload.map (BitVec.ofNat 32) := by
  rcases hid with rfl | rfl <;> rfl

/-- For ids 2 and 4 the payload follows a zero cmd_1. -/
theorem encodeResult_payload_follows (id tc pd : Nat) (payload : List Nat) (hid : id = 2 ∨ id = 4) :
    encodeResult id tc pd payload = inputHead id tc pd :: 0 :: payload.map (BitVec.ofNat 32) := by
  rcases hid with rfl | rfl <;> rfl

/-- For the other ids there is only a zero cmd_1. -/
theorem encodeResult_no_payload (id tc pd : Nat) (payload : List Nat) (h0 : id ≠ 0) (h1 : id ≠ 1) (h2 : id ≠ 2)
    (h4 : id ≠ 4) : encodeResult id tc pd payload = [inputHead id tc pd, 0] := by
  simp [encodeResult, inputHead, *]

/-! ### What `decode` reads, by where the payload stands (30_encoding R93, R114) -/

/-- The command `decode` reports for the first word `c0` and the payload read after it. -/
def frameCommand (m : Id5Mode) (c0 : Word) (payload : List (BitVec 10)) : Command where
  cmdId := cmdIdField c0
  kind := classify m (cmdIdField c0)
  transferCount := transferCountField c0
  repeats := (transferCountField c0).toNat + 1
  pinDirections := pinDirectionsField c0
  payload := payload

theorem decodeFrame_payload_in_cmd1 (m : Id5Mode) (c0 c1 : Word) (rest : List Word)
    (hid : (cmdIdField c0).toNat = 0 ∨ (cmdIdField c0).toNat = 1) :
    decodeFrame m (c0 :: c1 :: rest) = .ok (frameCommand m c0 [p10Field c1], rest) := by
  rcases hid with hid | hid <;> simp [decodeFrame, frameCommand, hid]

theorem decodeFrame_payload_follows (m : Id5Mode) (c0 c1 : Word) (ws rest : List Word)
    (hid : (cmdIdField c0).toNat = 2 ∨ (cmdIdField c0).toNat = 4)
    (hlen : ws.length = (transferCountField c0).toNat + 1) :
    decodeFrame m (c0 :: c1 :: (ws ++ rest)) = .ok (frameCommand m c0 (ws.map p10Field), rest) := by
  rcases hid with hid | hid <;> simp [decodeFrame, frameCommand, paylen, hid, ← hlen]

theorem decodeFrame_no_payload (m : Id5Mode) (c0 c1 : Word) (rest : List Word)
    (h0 : (cmdIdField c0).toNat ≠ 0) (h1 : (cmdIdField c0).toNat ≠ 1) (h2 : (cmdIdField c0).toNat ≠ 2)
    (h4 : (cmdIdField c0).toNat ≠ 4) :
    decodeFrame m (c0 :: c1 :: rest) = .ok (frameCommand m c0 [], rest) := by
  simp [decodeFrame, frameCommand, *]

/-! ### The round trip -/

/-- Decoding the words of an input whose id, count and payload length are in range: the payload stands in cmd_1, after
it, or nowhere, and the decoder looks for it at the place where the encoder puts it. -/
theorem decodeFrame_encodeResult (m : Id5Mode) (id tc pd : Nat) (payload : List Nat) (hid : id ≤ 15)
    (htc : tc ≤ 4095) (hlen : payload.length = paylen id tc) :
    decodeFrame m (encodeResult id tc pd payload) =
      .ok (frameCommand m (inputHead id tc pd) ((payload.map (BitVec.ofNat 32)).map p10Field), []) := by
  have hfield := cmdIdField_inputHead id tc pd hid
  have hplace : (id = 0 ∨ id = 1) ∨ (id = 2 ∨ id = 4) ∨ (id ≠ 0 ∧ id ≠ 1 ∧ id ≠ 2 ∧ id ≠ 4) := by omega
  rcases hplace with hin | hafter | ⟨h0, h1, h2, h4⟩
  · have hone : payload.length = 1 := by rcases hin with rfl | rfl <;> exact hlen
    obtain ⟨v, rfl⟩ := List.length_eq_one_iff.mp hone
    rw [encodeResult_payload_in_cmd1 id tc pd [v] hin]
    exact decodeFrame_payload_in_cmd1 m _ _ [] (by rwa [hfield])
  · have hcounted : payload.length = tc + 1 := by rcases hafter with rfl | rfl <;> exact hlen
    have hread := decodeFrame_payload_follows m (inputHead id tc pd) 0 (payload.map (BitVec.ofNat 32)) []
      (by rwa [hfield]) (by rw [List.length_map, hcounted, transferCountField_inputHead id tc pd htc])
    rw [encodeResult_payload_follows id tc pd payload hafter]
    rwa [List.append_nil] at hread
  · have hnone : payload.length = 0 := by rw [hlen]; simp [paylen, *]
    obtain rfl := List.length_eq_zero_iff.mp hnone
    rw [encodeResult_no_payload id tc pd [] h0 h1 h2 h4]
    exact decodeFrame_no_payload m _ 0 [] (by rwa [hfield]) (by rwa [hfield]) (by rwa [hfield]) (by rwa [hfield])

/-- Settles O5: an input that passes the checks is encoded, its words decode to the fields of its first word and the
payload items read back, and each of these is the input's own because it is in range. -/
theorem codecRoundTrip : Obligations.CodecRoundTrip := by
  intro m id tc pd payload hcheck
  obtain ⟨hid, htc, hpd, hlen, hitems⟩ := (encodeCheck_eq_none_iff id tc pd payload).mp hcheck
  have hcount := transferCountField_inputHead id tc pd htc
  exact ⟨_, _, encodeFrame_of_check id tc pd payload hcheck, decodeFrame_encodeResult m id tc pd payload hid htc hlen,
    cmdIdField_inputHead id tc pd hid, rfl, hcount, congrArg (· + 1) hcount, pinDirectionsField_inputHead id tc pd hpd,
    payload_readback payload hitems⟩

end Sys2Proof.Machine

/-! PROOFS. 30_encoding R103 and R104: the classification of the ids, and that no pair of words is illegal. -/

namespace Sys2Proof

/-! ### The classification (30_encoding R103) -/

theorem classify_of_waitRbbId_le (m : Id5Mode) (id : BitVec 4) (h : waitRbbId m ≤ id.toNat) :
    classify m id = .waitRbb := by
  simp [classify, h]

/-- The kinds of the defined ids, in the order of the ids. -/
theorem classify_of_lt_waitRbbId (m : Id5Mode) (id : BitVec 4) (h : id.toNat < waitRbbId m) :
    [Kind.bitbang, .cmdLatch, .addrLatch, .dataOutput, .dataInput, .signal][id.toNat]? = some (classify m id) := by
  have hid : id.toNat < 6 := Nat.lt_of_lt_of_le h (by cases m <;> decide)
  unfold classify
  rw [if_neg (Nat.not_le.mpr h)]
  generalize id.toNat = n at hid
  interval_cases n <;> rfl

/-! ### The rows of the decoder (30_encoding R102) -/

/-- `i` stands in the row of the opcode table for the id `n`: 5 is `signal` or `wait_rbb` by the variant, and every id
above 5 is `wait_rbb`. -/
def RowOfId (m : Id5Mode) (n : Nat) : Instr → Prop
  | .bitbang _ _ _ => n = 0
  | .cmdLatch _ _ _ => n = 1
  | .addrLatch _ _ _ => n = 2
  | .dataOutput _ _ _ => n = 3
  | .dataInput _ _ _ => n = 4
  | .signal _ _ _ => n = 5 ∧ m = .signal
  | .waitRbbFive _ _ _ => n = 5 ∧ m = .waitRbb
  | .waitRbbSixSeven _ _ _ _ => n = 6 ∨ n = 7
  | .waitRbbHigh _ _ _ _ => 8 ≤ n

theorem decodeHead_row (m : Id5Mode) (c0 c1 : Word) : RowOfId m (cmdIdField c0).toNat (decodeHead m c0 c1) := by
  unfold decodeHead
  split
  case h_6 hid => cases m <;> exact ⟨hid, rfl⟩
  case h_7 hid => exact .inl hid
  case h_8 hid => exact .inr hid
  case h_9 h0 h1 h2 h3 h4 h5 h6 h7 =>
    change 8 ≤ (cmdIdField c0).toNat
    simp only [imp_false] at h0 h1 h2 h3 h4 h5 h6 h7
    omega
  all_goals assumption

/-- A command in the row of its id has the kind of its id. -/
theorem kind_of_row (m : Id5Mode) (id : BitVec 4) (i : Instr) (h : RowOfId m id.toNat i) : i.kind = classify m id := by
  cases i with
  | signal tc pd c1 =>
    obtain ⟨hid, rfl⟩ := h
    simp [Instr.kind, classify, waitRbbId, hid]
  | waitRbbFive tc pd c1 =>
    obtain ⟨hid, rfl⟩ := h
    exact (classify_of_waitRbbId_le .waitRbb id hid.ge).symm
  | waitRbbSixSeven low tc pd c1 =>
    exact (classify_of_waitRbbId_le m id (by cases m <;> rcases h with h | h <;> simp [waitRbbId, h])).symm
  | waitRbbHigh low tc pd c1 =>
    exact (classify_of_waitRbbId_le m id (Nat.le_trans (by cases m <;> decide) h)).symm
  | bitbang | cmdLatch | addrLatch | dataOutput | dataInput =>
    simp only [RowOfId] at h
    cases m <;> simp [Instr.kind, classify, waitRbbId, h]

/-- A command in a row of the variant's table is one of the variant's commands. -/
theorem wellFormed_of_row (m : Id5Mode) (n : Nat) (i : Instr) (h : RowOfId m n i) : i.wellFormed m = true := by
  cases i with
  | signal tc pd c1 => simp [Instr.wellFormed, h.2]
  | waitRbbFive tc pd c1 => simp [Instr.wellFormed, h.2]
  | _ => rfl

theorem decodeHead_kind (m : Id5Mode) (c0 c1 : Word) : (decodeHead m c0 c1).kind = classify m (cmdIdField c0) :=
  kind_of_row m _ _ (decodeHead_row m c0 c1)

theorem decodeHead_wellFormed (m : Id5Mode) (c0 c1 : Word) : (decodeHead m c0 c1).wellFormed m = true :=
  wellFormed_of_row m _ _ (decodeHead_row m c0 c1)

/-- Settles O2: the two clauses on ids are the two branches of `classify`, and the decoder's rows follow them. -/
theorem opcodeMapClassifies : Obligations.OpcodeMapClassifies :=
  ⟨rfl, rfl, classify_of_waitRbbId_le, classify_of_lt_waitRbbId, decodeHead_kind⟩

end Sys2Proof

namespace Sys2Proof.Machine

/-! ### Every phase of a command's kind has a cycle of the command (30_encoding R104) -/

/-- The phases of each kind, in the order a command passes them (10_state R24, read from the kind's side). -/
def phasesOf : Kind → List Phase
  | .bitbang => [.setupA, .setupB, .bbEmit]
  | .cmdLatch => [.setupA, .setupB, .wPlace, .wLow, .wRise, .wHigh, .clExit]
  | .addrLatch => [.setupA, .setupB, .wPlace, .wLow, .wRise, .wHigh, .alExit]
  | .dataOutput => [.setupA, .setupB, .rFall, .rLow, .rSample, .rHigh]
  | .dataInput => [.setupA, .setupB, .wPlace, .wLow, .wRise, .wHigh]
  | .signal => [.setupA, .setupB, .signal]
  | .waitRbb => [.setupA, .setupB, .waitRbb]

theorem phaseBelongs_iff_mem_phasesOf (k : Kind) (p : Phase) : phaseBelongs k p = true ↔ p ∈ phasesOf k := by
  cases k <;> cases p <;> decide

/-- The one meaning shared by the `wait_rbb` of all ids. -/
theorem waitRbbCycle_next (id : BitVec 4) (tc : BitVec 12) (pd : BitVec 16) (c1 : Word) (s : State)
    (h : s.phase ∈ phasesOf .waitRbb) : ∃ t : State, waitRbbCycle id tc pd c1 s = .next t := by
  simp only [phasesOf, List.mem_cons, List.not_mem_nil, or_false] at h
  rcases h with hp | hp | hp <;> simp [waitRbbCycle, hp]

/-- In a phase of its kind a command neither faults nor refuses: its meaning has an arm for each of them. -/
theorem exec_next_of_phaseBelongs (i : Instr) (s : State) (h : phaseBelongs i.kind s.phase = true) :
    ∃ t : State, exec i s = .next t := by
  rw [phaseBelongs_iff_mem_phasesOf] at h
  cases i
  case waitRbbFive => exact waitRbbCycle_next _ _ _ _ s h
  case waitRbbSixSeven => exact waitRbbCycle_next _ _ _ _ s h
  case waitRbbHigh => exact waitRbbCycle_next _ _ _ _ s h
  all_goals simp only [Instr.kind, phasesOf, List.mem_cons, List.not_mem_nil, or_false] at h
  case bitbang => rcases h with hp | hp | hp <;> simp [exec, execBitbang, hp]
  case cmdLatch => rcases h with hp | hp | hp | hp | hp | hp | hp <;> simp [exec, execCmdLatch, hp]
  case addrLatch => rcases h with hp | hp | hp | hp | hp | hp | hp <;> simp [exec, execAddrLatch, hp]
  case dataOutput => rcases h with hp | hp | hp | hp | hp | hp <;> simp [exec, execDataOutput, hp]
  case dataInput => rcases h with hp | hp | hp | hp | hp | hp <;> simp [exec, execDataInput, hp]
  case signal => rcases h with hp | hp | hp <;> simp [exec, execSignal, hp]

/-- Settles O3: the command is the one `decodeHead` reads from the two words; ids above `WAIT_RBB_ID` are among those
that classify as `wait_rbb`. -/
theorem noIllegalCommandWord : Obligations.NoIllegalCommandWord := by
  intro m c0 c1 rest
  refine ⟨decodeHead m c0 c1, rfl, decodeHead_wellFormed m c0 c1, fun hid => ?_,
    exec_next_of_phaseBelongs (decodeHead m c0 c1)⟩
  exact (decodeHead_kind m c0 c1).trans (classify_of_waitRbbId_le m _ hid.le)

end Sys2Proof.Machine

/-! PROOFS. 43_sync_commands R228: the ready/busy wait has no timeout. -/

namespace Sys2Proof.Machine

/-! ### Nothing but the driver's ceiling faults -/

theorem waitRbbCycle_ne_fault (id : BitVec 4) (tc : BitVec 12) (pd : BitVec 16) (c1 : Word) (s : State) (f : Fault) :
    waitRbbCycle id tc pd c1 s ≠ .fault f := by
  unfold waitRbbCycle
  split <;> simp

/-- The meaning of a command gives a next state in its own phases and refuses the others (40_dispatch R142). -/
theorem exec_ne_fault (i : Instr) (s : State) (f : Fault) : exec i s ≠ .fault f := by
  cases i with
  | bitbang tc pd c1 =>
    simp only [exec, execBitbang]
    split <;> simp
  | cmdLatch tc pd c1 =>
    simp only [exec, execCmdLatch]
    split <;> simp
  | addrLatch tc pd c1 =>
    simp only [exec, execAddrLatch]
    split <;> simp
  | dataOutput tc pd c1 =>
    simp only [exec, execDataOutput]
    split <;> simp
  | dataInput tc pd c1 =>
    simp only [exec, execDataInput]
    split <;> simp
  | signal tc pd c1 =>
    simp only [exec, execSignal]
    split <;> simp
  | waitRbbFive tc pd c1 => exact waitRbbCycle_ne_fault _ _ _ _ s f
  | waitRbbSixSeven low tc pd c1 => exact waitRbbCycle_ne_fault _ _ _ _ s f
  | waitRbbHigh low tc pd c1 => exact waitRbbCycle_ne_fault _ _ _ _ s f

/-- The state machine has no fault of its own (40_dispatch R142). -/
theorem machineCycle_ne_fault (s : State) (f : Fault) : machineCycle s ≠ .fault f := by
  unfold machineCycle
  split
  · exact exec_ne_fault _ _ f
  · simp

theorem atCeiling_iff (s : State) : atCeiling s = true ↔ s.host = .driver ∧ s.cfg.maxCycles ≤ s.cycle := by
  unfold atCeiling
  cases s.host <;> simp [isDriver]

/-- A step faults exactly when an unfinished run of the driver has reached its ceiling (46_harness R296). -/
theorem step_fault_iff (s : State) (f : Fault) :
    step s = .fault f ↔
      s.cfg.valid = true ∧ s.finished = false ∧ atCeiling s = true ∧ f = .cycleCeiling s.cfg.maxCycles := by
  unfold step
  split
  · next hv => simp [hv]
  · split
    · next hf => simp [hf]
    · split
      · next hv hf hc => simpa [hv, hf, hc] using eq_comm
      · next hc =>
        split
        · simp [hc]
        · next e he => exact absurd he (machineCycle_ne_fault _ e)
        · simp [hc]

/-! ### The environment, cycle by cycle -/

/-- The level of the current cycle is the environment's at index `CYCLE` (00_scope R13). -/
theorem ext_eq_extAt (s : State) : s.ext = extAt s s.cycle := by
  unfold State.ext extAt
  cases s.env <;> simp

/-- Dropping the environment of the cycle that has passed leaves what is known of the later ones. -/
theorem extAt_of_next_cycle (s t : State) (c : Nat) (hcycle : t.cycle = s.cycle + 1) (henv : t.env = s.env.tail)
    (hc : s.cycle + 1 ≤ c) : extAt t c = extAt s c := by
  unfold extAt
  rw [hcycle, henv, List.getElem?_tail, show c - (s.cycle + 1) + 1 = c - s.cycle by omega]

/-! ### Waiting for pin 15 -/

/-- A `wait_rbb` polls pin 15, an input, and no host is there to act. -/
structure IdleWait (s : State) : Prop where
  valid : s.cfg.valid = true
  unfinished : s.finished = false
  idle : s.host = .script []
  phase : s.phase = .waitRbb
  kind : s.kind = .waitRbb
  input : s.pindir.getLsbD 15 = false

theorem IdleWait.of_frame {s t : State} (w : IdleWait s) (h : Frame [.cycle, .trace, .events, .env] s t) :
    IdleWait t where
  valid := by rw [show t.cfg = s.cfg from h .cfg (by simp), w.valid]
  unfinished := (h .finished (by simp)).trans w.unfinished
  idle := (h .host (by simp)).trans w.idle
  phase := (h .phase (by simp)).trans w.phase
  kind := (h .kind (by simp)).trans w.kind
  input := by rw [show t.pindir = s.pindir from h .pindir (by simp), w.input]

/-- The cycle of a `wait_rbb` in flight is the poll, whatever its id (43_sync_commands R225). -/
theorem exec_inFlight_waitRbb (s : State) (hp : s.phase = .waitRbb) (hk : s.kind = .waitRbb) :
    exec s.inFlight s = .next (pollReady s) := by
  have hcycle : ∀ id tc pd c1, waitRbbCycle id tc pd c1 s = .next (pollReady s) := by simp [waitRbbCycle, hp]
  simp only [State.inFlight, hk]
  split
  · exact hcycle _ _ _ _
  · split <;> exact hcycle _ _ _ _

theorem machineCycle_waitRbb (s : State) (hp : s.phase = .waitRbb) (hk : s.kind = .waitRbb) :
    machineCycle s = .next (pollReady s) := by
  have hfetch : fetch s = .command s.inFlight s := by simp [fetch, hp]
  rw [machineCycle, hfetch]
  exact exec_inFlight_waitRbb s hp hk

/-- A poll that reads 0 leaves the state as it is. -/
theorem pollReady_busy (s : State) (hp : s.phase = .waitRbb) (hlow : s.level pinRbb = false) : pollReady s = s := by
  rcases pollReady_cases s with ⟨hhigh, -⟩ | ⟨-, h⟩
  · simp [hlow] at hhigh
  · rw [h, State.goto, ← hp]

/-- A cycle outside SETUP_A is not the driver's last one: it only moves on to the next. -/
theorem endCycle_of_phase_ne_setupA (s : State) (hp : s.phase ≠ .setupA) :
    endCycle s = { s with trace := s.trace ++ [snapshot s], cycle := s.cycle + 1, env := s.env.tail } := by
  have hnot : done s = false := by simp [done, hp]
  rcases endCycle_cases s with ⟨-, hd, -⟩ | ⟨-, h⟩
  · simp [hnot] at hd
  · exact h

/-- One step of the wait with pin 15 at 0. -/
theorem IdleWait.step_next {s : State} (w : IdleWait s) (hlow : s.ext.getLsbD 15 = false) :
    ∃ t : State, step s = .next t ∧ t.cycle = s.cycle + 1 ∧ t.env = s.env.tail ∧
      Frame [.cycle, .trace, .events, .env] s t := by
  have hturn : hostTurn s = s := by simp [hostTurn, w.idle, scriptTurn]
  have hlevel : (beginCycle s).level pinRbb = false := by
    rw [level_eq _ _ (by decide), beginCycle_pindir, show s.pindir.getLsbD pinRbb = false from w.input]
    exact hlow
  have hcycle : machineCycle (beginCycle (hostTurn s)) = .next (beginCycle s) := by
    rw [hturn, machineCycle_waitRbb (beginCycle s) w.phase w.kind, pollReady_busy (beginCycle s) w.phase hlevel]
  have hrun : Runnable s := ⟨w.valid, w.unfinished, by simp [atCeiling, w.idle, isDriver]⟩
  have hend := endCycle_of_phase_ne_setupA (beginCycle s) (by simp [w.phase])
  refine ⟨_, step_of_machineCycle s _ hrun hcycle, by simp [hend], by simp [hend], ?_⟩
  rw [hend, frame_iff]
  simp

/-- The wait goes on for as many cycles as pin 15 stays at 0 (43_sync_commands R228). -/
theorem IdleWait.afterSteps (n : Nat) {s : State} (w : IdleWait s)
    (hlow : ∀ c : Nat, s.cycle ≤ c → c < s.cycle + n → (extAt s c).getLsbD 15 = false) :
    AfterSteps n s fun t => t.cycle = s.cycle + n ∧ Frame [.cycle, .trace, .events, .env] s t := by
  induction n generalizing s with
  | zero => exact ⟨s, run_zero s, rfl, by rw [frame_iff]; simp⟩
  | succ n ih =>
    obtain ⟨u, hstep, hcycle, henv, hframe⟩ := w.step_next (by
      rw [ext_eq_extAt]
      exact hlow s.cycle (Nat.le_refl _) (by omega))
    obtain ⟨t, hrun, ht, hkept⟩ := ih (w.of_frame hframe) fun c hfrom hto => by
      rw [extAt_of_next_cycle s u c hcycle henv (by omega)]
      exact hlow c (by omega) (by omega)
    exact ⟨t, (run_succ_of_next n s u hstep).trans hrun, by omega,
      hframe.trans hkept (List.Subset.refl _) (List.Subset.refl _)⟩

/-- Settles O49: the wait is kept by every step, and a step's only fault is the driver's ceiling. -/
theorem waitRbbHasNoTimeout : Obligations.WaitRbbHasNoTimeout := by
  refine ⟨?_, ?_, ?_⟩
  · intro n s hvalid hunfinished hidle hphase hkind hinput
    exact IdleWait.afterSteps n ⟨hvalid, hunfinished, hidle, hphase, hkind, hinput⟩
  · intro s hvalid hunfinished hdriver hceiling
    exact (step_fault_iff s _).mpr ⟨hvalid, hunfinished, (atCeiling_iff s).mpr ⟨hdriver, hceiling⟩, rfl⟩
  · intro s turns f hscript hfault
    obtain ⟨-, -, hceiling, -⟩ := (step_fault_iff s f).mp hfault
    obtain ⟨hdriver, -⟩ := (atCeiling_iff s).mp hceiling
    simp [hscript] at hdriver

end Sys2Proof.Machine

/-! PROOFS. 45_scenarios R260: every scenario decodes to one command per line and ends with a `wait_rbb`. -/

namespace Sys2Proof.Machine

/-! ### Frames in front of more words (30_encoding R114) -/

/-- The decoder reads no further than its frame: words after the list go to the rest. Its payload stands in cmd_1, after
it, or nowhere. -/
theorem decodeFrame_append (m : Id5Mode) (ws rest more : List Word) (c : Command)
    (h : decodeFrame m ws = .ok (c, rest)) : decodeFrame m (ws ++ more) = .ok (c, rest ++ more) := by
  match ws with
  | [] | [_] => simp [decodeFrame] at h
  | c0 :: c1 :: tail =>
    have hplace : ((cmdIdField c0).toNat = 0 ∨ (cmdIdField c0).toNat = 1) ∨
        ((cmdIdField c0).toNat = 2 ∨ (cmdIdField c0).toNat = 4) ∨
        ((cmdIdField c0).toNat ≠ 0 ∧ (cmdIdField c0).toNat ≠ 1 ∧ (cmdIdField c0).toNat ≠ 2 ∧
          (cmdIdField c0).toNat ≠ 4) := by omega
    rcases hplace with hin | hafter | ⟨h0, h1, h2, h4⟩
    · rw [decodeFrame_payload_in_cmd1 m c0 c1 tail hin] at h
      obtain ⟨rfl, rfl⟩ := Prod.mk.inj (Except.ok.inj h)
      exact decodeFrame_payload_in_cmd1 m c0 c1 (tail ++ more) hin
    · by_cases hshort : tail.length < (transferCountField c0).toNat + 1
      · rcases hafter with hid | hid <;> simp [decodeFrame, paylen, hid, hshort] at h
      · obtain ⟨items, others, rfl, hlen⟩ : ∃ items others : List Word,
            tail = items ++ others ∧ items.length = (transferCountField c0).toNat + 1 :=
          ⟨_, _, (List.take_append_drop _ tail).symm, List.length_take_of_le (Nat.not_lt.mp hshort)⟩
        rw [decodeFrame_payload_follows m c0 c1 items others hafter hlen] at h
        obtain ⟨rfl, rfl⟩ := Prod.mk.inj (Except.ok.inj h)
        rw [List.cons_append, List.cons_append, List.append_assoc]
        exact decodeFrame_payload_follows m c0 c1 items (others ++ more) hafter hlen
    · rw [decodeFrame_no_payload m c0 c1 tail h0 h1 h2 h4] at h
      obtain ⟨rfl, rfl⟩ := Prod.mk.inj (Except.ok.inj h)
      exact decodeFrame_no_payload m c0 c1 (tail ++ more) h0 h1 h2 h4

/-! ### The lines of a scenario as commands (30_encoding R113, R122) -/

/-- What `encode` answers is the encoding of an input that passes its checks. -/
theorem encodeFrame_eq_ok (id tc pd : Nat) (payload : List Nat) (ws : List Word)
    (h : encodeFrame id tc pd payload = .ok ws) :
    encodeCheck id tc pd payload = none ∧ ws = encodeResult id tc pd payload := by
  unfold encodeFrame at h
  split at h
  · cases h
  · exact ⟨‹_›, (Except.ok.inj h).symm⟩

/-- What `encode_cmd` answers is the frame of the kind's canonical id, and the kind is one of the variant's. -/
theorem encodeCmd_eq_ok (m : Id5Mode) (k : Kind) (count pd : Nat) (payload : List Nat) (ws : List Word)
    (h : encodeCmd m k count pd payload = .ok ws) :
    ¬ (k = .signal ∧ m = .waitRbb) ∧ encodeFrame (canonicalId m k) (count - 1) pd payload = .ok ws := by
  unfold encodeCmd at h
  split_ifs at h with hkind
  exact ⟨hkind, h⟩

/-- The canonical id of a kind the variant has is classified as that kind (30_encoding R103, R105). -/
theorem classify_canonicalId (m : Id5Mode) (k : Kind) (hkind : ¬ (k = .signal ∧ m = .waitRbb)) :
    classify m (BitVec.ofNat 4 (canonicalId m k)) = k := by
  cases m with
  | signal => cases k <;> rfl
  | waitRbb =>
    cases k with
    | signal => exact absurd ⟨rfl, rfl⟩ hkind
    | _ => rfl

/-- The words of `encode_cmd` are one frame of the kind asked for, whatever follows them. -/
theorem decodeFrame_encodeCmd (m : Id5Mode) (k : Kind) (count pd : Nat) (payload : List Nat) (ws more : List Word)
    (h : encodeCmd m k count pd payload = .ok ws) :
    ∃ c : Command, c.kind = k ∧ decodeFrame m (ws ++ more) = .ok (c, more) := by
  obtain ⟨hkind, hframe⟩ := encodeCmd_eq_ok m k count pd payload ws h
  obtain ⟨hcheck, rfl⟩ := encodeFrame_eq_ok _ _ pd payload ws hframe
  obtain ⟨hid, htc, -, hlen, -⟩ := (encodeCheck_eq_none_iff _ _ pd payload).mp hcheck
  refine ⟨_, ?_, decodeFrame_append m _ [] more _ (decodeFrame_encodeResult m _ _ pd payload hid htc hlen)⟩
  change classify m (cmdIdField (inputHead _ _ _)) = k
  rw [inputHead, cmdIdField_cmd0Word, classify_canonicalId m k hkind]

/-- A frame is not empty: no words are no frame. -/
theorem encodeCmd_ne_nil (m : Id5Mode) (k : Kind) (count pd : Nat) (payload : List Nat) (ws : List Word)
    (h : encodeCmd m k count pd payload = .ok ws) : ws ≠ [] := by
  rintro rfl
  obtain ⟨c, -, hframe⟩ := decodeFrame_encodeCmd m k count pd payload [] [] h
  simp [decodeFrame] at hframe

/-- The kind a line names; a `raw` line names none, as its words are not checked (30_encoding R122). -/
def Line.namedKind : Line → Option Kind
  | .bitbang .. => some .bitbang
  | .cmdLatch .. => some .cmdLatch
  | .addrLatch .. => some .addrLatch
  | .dataOutput .. => some .dataOutput
  | .dataInput .. => some .dataInput
  | .signal .. => some .signal
  | .waitRbb .. => some .waitRbb
  | .raw .. => none

/-- A line that names a kind is assembled by `encode_cmd` for that kind. -/
theorem assembleLine_of_namedKind (m : Id5Mode) (l : Line) (k : Kind) (h : l.namedKind = some k) :
    ∃ (count pd : Nat) (payload : List Nat), assembleLine m l = encodeCmd m k count pd payload := by
  cases l with
  | raw => cases h
  | _ =>
    obtain rfl := Option.some.inj h
    exact ⟨_, _, _, rfl⟩

/-! ### Assembled lists (30_encoding R117, 45_scenarios R242) -/

/-- What `assemble` answers for a list of lines is the words of the first line and then those of the others. -/
theorem assemble_cons_eq_ok (m : Id5Mode) (l : Line) (ls : List Line) (ws : List Word)
    (h : assemble m (l :: ls) = .ok ws) :
    ∃ front back : List Word, assembleLine m l = .ok front ∧ assemble m ls = .ok back ∧ ws = front ++ back := by
  unfold assemble at h
  split at h
  · cases h
  · split at h
    · cases h
    · exact ⟨_, _, ‹_›, ‹_›, (Except.ok.inj h).symm⟩

@[simp] theorem decodeStreamWithin_nil (m : Id5Mode) (n : Nat) : decodeStreamWithin m n [] = .ok [] := by
  cases n <;> rfl

/-- One frame of a stream: its command, then those of the words after it. -/
theorem decodeStreamWithin_of_decodeFrame (m : Id5Mode) (n : Nat) (ws rest : List Word) (c : Command)
    (cs : List Command) (hframe : decodeFrame m ws = .ok (c, rest)) (hrest : decodeStreamWithin m n rest = .ok cs) :
    decodeStreamWithin m (n + 1) ws = .ok (c :: cs) := by
  cases ws with
  | nil => simp [decodeFrame] at hframe
  | cons w ws => simp [decodeStreamWithin, hframe, hrest]

/-- Lines that name their kinds decode to one command each, of the kind named. A frame has at least one word, so a
bound as long as the word list is enough. -/
theorem decodeStreamWithin_assemble (m : Id5Mode) (ls : List Line) (hnamed : ∀ l ∈ ls, l.namedKind ≠ none)
    (ws : List Word) (n : Nat) (hn : ws.length ≤ n) (h : assemble m ls = .ok ws) :
    ∃ cs : List Command, decodeStreamWithin m n ws = .ok cs ∧
      cs.map (fun c => some c.kind) = ls.map Line.namedKind := by
  induction ls generalizing ws n with
  | nil =>
    obtain rfl : [] = ws := Except.ok.inj h
    exact ⟨[], decodeStreamWithin_nil m n, rfl⟩
  | cons l ls ih =>
    obtain ⟨front, back, hfront, hback, rfl⟩ := assemble_cons_eq_ok m l ls ws h
    obtain ⟨k, hk⟩ := Option.ne_none_iff_exists'.mp (hnamed l List.mem_cons_self)
    obtain ⟨count, pd, payload, hline⟩ := assembleLine_of_namedKind m l k hk
    rw [hline] at hfront
    obtain ⟨c, hc, hframe⟩ := decodeFrame_encodeCmd m k count pd payload front back hfront
    have hfuel := List.length_pos_iff.mpr (encodeCmd_ne_nil m k count pd payload front hfront)
    rw [List.length_append] at hn
    obtain ⟨n, rfl⟩ : ∃ i, n = i + 1 := ⟨n - 1, by omega⟩
    obtain ⟨cs, hcs, hkinds⟩ := ih (fun l' hl' => hnamed l' (List.mem_cons_of_mem l hl')) back n (by omega) hback
    exact ⟨c :: cs, decodeStreamWithin_of_decodeFrame m n _ back c cs hframe hcs, by simp [hc, hk, hkinds]⟩

/-- A stream that decodes and ends in a terminator is answered by `validate` (45_scenarios R261). -/
theorem validate_of_terminated (m : Id5Mode) (ws : List Word) (cs : List Command) (c : Command)
    (hcs : decodeStream m ws = .ok cs) (hlast : cs.getLast? = some c) (hc : c.kind = .waitRbb ∨ c.kind = .signal) :
    validate m ws = .ok cs := by
  simp [validate, hcs, hlast, hc]

/-! ### The scenarios (45_scenarios R246 to R251) -/

/-- No scenario has a `raw` line. -/
theorem namedKind_of_mem_expansion (p : Params) (n : ScenarioName) : ∀ l ∈ expansion p n, l.namedKind ≠ none := by
  cases n <;> simp [expansion, Line.namedKind]

/-- Every scenario's last line is a `wait_rbb`. -/
theorem getLast?_expansion (p : Params) (n : ScenarioName) : (expansion p n).getLast? = some (.waitRbb p.pdWrite) := by
  cases n <;> rfl

/-- Settles O50: the lines of a scenario name their kinds, so its words decode to one command of the named kind per
line; the last line is a `wait_rbb`, so the last command is one. -/
theorem scenariosTerminate : Obligations.ScenariosTerminate := by
  intro m p n ws h
  obtain ⟨cs, hcs, hkinds⟩ :=
    decodeStreamWithin_assemble m _ (namedKind_of_mem_expansion p n) ws ws.length (Nat.le_refl _) h
  have hlen : cs.length = (expansion p n).length := by simpa using congrArg List.length hkinds
  have hlastKind : cs.getLast?.map (fun c => some c.kind) = some (some .waitRbb) := by
    rw [← List.getLast?_map, hkinds, List.getLast?_map, getLast?_expansion]
    rfl
  obtain ⟨c, hlast, hc⟩ := Option.map_eq_some_iff.mp hlastKind
  have hterm : c.kind = .waitRbb ∨ c.kind = .signal := .inl (Option.some.inj hc)
  exact ⟨cs, c, hcs, hlen, hlast, hterm, validate_of_terminated m ws cs c hcs hlast hterm⟩

end Sys2Proof.Machine

/-! PROOFS. 60_exceptions R349: nothing diverts a running command. -/

namespace Sys2Proof.Machine

/-! ### A cycle by its phase (10_state R24)

The meanings in `exec` are given per command. Read per phase they are one table: a phase has the same cycle for every
kind it belongs to, but for the payload of `W_PLACE` and the successor of a write pulse. -/

/-- `after_w()`, the successor of a finished write pulse (41_pin_commands R180). -/
def afterPulse (k : Kind) : State → State :=
  match k with
  | .addrLatch => loopBack .wPlace .alExit
  | .dataInput => loopBack .wPlace .setupA
  | .bitbang | .cmdLatch | .dataOutput | .signal | .waitRbb => (State.goto · .clExit)

/-- `W_PLACE`: `cmd_latch` has its payload in `CMD1`, the other write kinds pop it (41_pin_commands R176). -/
def placeCycle (k : Kind) (s : State) : State :=
  if k = .cmdLatch then placePayload s.cmd1 s else placeFromTxq s

/-- The cycle of a phase after SETUP, for a command of kind `k` the phase belongs to. SETUP's own cycles are no part of
the table. -/
def phaseCycle (k : Kind) (p : Phase) (s : State) : State :=
  match p with
  | .setupA | .setupB => s
  | .bbEmit => ((s.setOut (setPayload s.out s.cmd1)).record .placement).goto .setupA
  | .wPlace => placeCycle k s
  | .wLow => holdLow s
  | .wRise => latchPulse (afterPulse k) s
  | .wHigh => holdHigh (afterPulse k) s
  | .clExit => (s.setOut (setBit s.out pinCle false)).goto .setupA
  | .alExit => (s.setOut (setBit s.out pinAle false)).goto .setupA
  | .rFall => readFall s
  | .rLow => readLow s
  | .rSample => readSample s
  | .rHigh => readHigh s
  | .signal => (s.raiseIrq.record .signalRaised).goto .setupA
  | .waitRbb => pollReady s

/-- What a cycle of kind `k` answers in the phase `p` after SETUP. -/
def phaseOutcome (k : Kind) (p : Phase) (s : State) : Host.Outcome State Fault Refusal :=
  if phaseBelongs k p = true then .next (phaseCycle k p s) else .refused (.unreachablePhase p k)

/-- Outside SETUP the meaning of a command is the table of phases at its kind. -/
theorem exec_running (i : Instr) (s : State) (h : isSetup s.phase = false) :
    exec i s = phaseOutcome i.kind s.phase s := by
  obtain ⟨cfg, phase⟩ := s
  cases phase with
  | setupA | setupB => cases h
  | _ => cases i <;> rfl

/-- Outside SETUP a cycle of the state machine is the table of phases at `KIND` and `PHASE`. -/
theorem machineCycle_running (s : State) (h : isSetup s.phase = false) :
    machineCycle s = phaseOutcome s.kind s.phase s := by
  have hfetch : fetch s = .command s.inFlight s := by
    unfold fetch
    split <;> simp_all [isSetup]
  simp only [machineCycle, hfetch, exec_running s.inFlight s h, kind_inFlight]

/-! ### The completing cycle of SETUP (40_dispatch R144, R145) -/

/-- The latch enable raised at the dispatch of `cmd_latch` and of `addr_latch` (40_dispatch R147). -/
def raiseEnable (k : Kind) : State → State :=
  match k with
  | .cmdLatch => raiseCle
  | .addrLatch => raiseAle
  | .bitbang | .dataOutput | .dataInput | .signal | .waitRbb => id

/-- The completing cycle of SETUP (40_dispatch R145): the dispatch, the kind's latch enable raised (R147), and on to the
kind's first phase. -/
def startCommand (i : Instr) (s : State) : State :=
  (raiseEnable i.kind (dispatch i.kind i.cmdId i.transferCount i.pinDirections i.cmd1 s)).goto (firstPhase i.kind)

theorem isSetup_iff (p : Phase) : isSetup p = true ↔ p = .setupA ∨ p = .setupB := by
  cases p <;> decide

/-- In SETUP the meaning of a command is its dispatch. -/
theorem exec_setup (i : Instr) (s : State) (h : isSetup s.phase = true) : exec i s = .next (startCommand i s) := by
  obtain ⟨cfg, phase⟩ := s
  rcases (isSetup_iff phase).mp h with rfl | rfl <;> cases i <;> rfl

/-- A SETUP_A cycle with two words pops both and dispatches the command they decode to (40_dispatch R144). -/
theorem machineCycle_of_two_words (s : State) (w v : Word) (rest : List Word) (hp : s.phase = .setupA)
    (hq : s.txq = w :: v :: rest) :
    machineCycle s = .next (startCommand (decodeHead s.cfg.id5Mode w v)
      (((loadCmd0 w (v :: rest) s).setTxq rest).record (.pop v))) := by
  have hfetch : fetch s = .command (decodeHead s.cfg.id5Mode w v)
      (((loadCmd0 w (v :: rest) s).setTxq rest).record (.pop v)) := by
    simp [fetch, fetchCmd1, hp, hq]
  simp only [machineCycle, hfetch]
  exact exec_setup _ _ rfl

/-- A SETUP_B cycle with a word pops it and dispatches (40_dispatch R144). -/
theorem machineCycle_of_second_word (s : State) (v : Word) (rest : List Word) (hp : s.phase = .setupB)
    (hq : s.txq = v :: rest) :
    machineCycle s = .next (startCommand (decodeHead s.cfg.id5Mode s.cmd0 v) ((s.setTxq rest).record (.pop v))) := by
  have hfetch : fetch s = .command (decodeHead s.cfg.id5Mode s.cmd0 v) ((s.setTxq rest).record (.pop v)) := by
    simp [fetch, fetchCmd1, hp, hq]
  simp only [machineCycle, hfetch]
  exact exec_setup _ _ ((isSetup_iff _).mpr (.inr hp))

/-! ### What a cycle after SETUP writes -/

/-- The registers a cycle after SETUP may write. -/
def runningRegs : List Reg := [.phase, .tmr, .cnt, .out, .irq, .txq, .rxq, .events]

/-- `t` differs from `s` only in those registers that a cycle after SETUP may write. -/
def RunFrame (s t : State) : Prop := Frame runningRegs s t

theorem runFrame_iff (s t : State) :
    RunFrame s t ↔
      t.cfg = s.cfg ∧ t.kind = s.kind ∧ t.cmd0 = s.cmd0 ∧ t.cmd1 = s.cmd1 ∧ t.y = s.y ∧ t.pindir = s.pindir ∧
      t.cycle = s.cycle ∧ t.pending = s.pending ∧ t.received = s.received ∧ t.trace = s.trace ∧ t.host = s.host ∧
      t.env = s.env ∧ t.finished = s.finished := by
  simp [RunFrame, runningRegs, frame_iff]

theorem RunFrame.trans {s t u : State} (h : RunFrame s t) (k : RunFrame t u) : RunFrame s u :=
  Frame.trans h k (List.Subset.refl _) (List.Subset.refl _)

theorem runFrame_goto (p : Phase) (s : State) : RunFrame s (s.goto p) := by
  simp [runFrame_iff]

theorem runFrame_record (e : Event) (s : State) : RunFrame s (s.record e) := by
  simp [runFrame_iff]

theorem runFrame_setOut (o : Pins) (s : State) : RunFrame s (s.setOut o) := by
  simp [runFrame_iff]

theorem runFrame_setTmr (n : Nat) (s : State) : RunFrame s (s.setTmr n) := by
  simp [runFrame_iff]

theorem runFrame_loopBack (first exit : Phase) (s : State) : RunFrame s (loopBack first exit s) := by
  rcases loopBack_cases first exit s with ⟨-, h⟩ | ⟨-, h⟩ <;> rw [h] <;> simp [runFrame_iff]

theorem runFrame_startTimed (t : Nat) (wait : Phase) (next : State → State) (s : State)
    (hn : ∀ u : State, RunFrame u (next u)) : RunFrame s (startTimed t wait next s) := by
  rcases startTimed_cases t wait next s with ⟨-, h⟩ | ⟨-, h⟩ <;> rw [h]
  · exact (runFrame_setTmr 0 s).trans (hn _)
  · exact (runFrame_setTmr _ s).trans (runFrame_goto _ _)

theorem runFrame_waitTimed (wait : Phase) (next : State → State) (s : State)
    (hn : ∀ u : State, RunFrame u (next u)) : RunFrame s (waitTimed wait next s) := by
  rcases waitTimed_cases wait next s with ⟨-, h⟩ | ⟨-, h⟩ <;> rw [h]
  · exact (runFrame_setTmr 0 s).trans (hn _)
  · exact (runFrame_setTmr _ s).trans (runFrame_goto _ _)

theorem runFrame_afterPulse (k : Kind) (s : State) : RunFrame s (afterPulse k s) := by
  cases k with
  | addrLatch | dataInput => exact runFrame_loopBack _ _ s
  | _ => exact runFrame_goto _ s

theorem runFrame_placePayload (p : Word) (s : State) : RunFrame s (placePayload p s) :=
  ((runFrame_setOut _ s).trans (runFrame_record _ _)).trans (runFrame_startTimed _ _ _ _ (runFrame_goto _))

theorem runFrame_placeCycle (k : Kind) (s : State) : RunFrame s (placeCycle k s) := by
  unfold placeCycle
  split
  · exact runFrame_placePayload _ s
  · rcases placeFromTxq_cases s with ⟨-, h⟩ | ⟨p, rest, -, h⟩ <;> rw [h]
    · exact runFrame_record _ s
    · have hpop : RunFrame s ((s.setTxq rest).record (.pop p)) := by simp [runFrame_iff]
      exact hpop.trans (runFrame_placePayload p _)

theorem runFrame_readSample (s : State) : RunFrame s (readSample s) := by
  rcases readSample_cases s with ⟨-, h⟩ | ⟨-, h⟩ <;> rw [h]
  · exact runFrame_record _ s
  · have hpush : RunFrame s ((s.setRxq (s.rxq ++ [d8Word s.sampledByte])).record (.readSample s.sampledByte)) := by
      simp [runFrame_iff]
    exact (hpush.trans (runFrame_setOut _ _)).trans (runFrame_startTimed _ _ _ _ (runFrame_loopBack _ _))

theorem runFrame_pollReady (s : State) : RunFrame s (pollReady s) := by
  rcases pollReady_cases s with ⟨-, h⟩ | ⟨-, h⟩ <;> rw [h]
  · exact (runFrame_record _ s).trans (runFrame_goto _ _)
  · exact runFrame_goto _ s

/-- No phase after SETUP writes a register that says which command runs. -/
theorem runFrame_phaseCycle (k : Kind) (p : Phase) (s : State) : RunFrame s (phaseCycle k p s) := by
  cases p with
  | setupA | setupB => exact (runFrame_iff s s).mpr (by simp)
  | bbEmit => exact ((runFrame_setOut _ s).trans (runFrame_record _ _)).trans (runFrame_goto _ _)
  | wPlace => exact runFrame_placeCycle k s
  | wLow | rLow => exact runFrame_waitTimed _ _ s (runFrame_goto _)
  | wRise =>
    exact ((runFrame_setOut _ s).trans (runFrame_record _ _)).trans
      (runFrame_startTimed _ _ _ _ (runFrame_afterPulse k))
  | wHigh => exact runFrame_waitTimed _ _ s (runFrame_afterPulse k)
  | clExit | alExit => exact (runFrame_setOut _ s).trans (runFrame_goto _ _)
  | rFall => exact (runFrame_setOut _ s).trans (runFrame_startTimed _ _ _ _ (runFrame_goto _))
  | rSample => exact runFrame_readSample s
  | rHigh => exact runFrame_waitTimed _ _ s (runFrame_loopBack _ _)
  | signal =>
    have hraise : RunFrame s s.raiseIrq := by simp [runFrame_iff]
    exact (hraise.trans (runFrame_record _ _)).trans (runFrame_goto _ _)
  | waitRbb => exact runFrame_pollReady s

/-- What a cycle after SETUP leaves unchanged. -/
theorem machineCycle_runFrame (s t : State) (hrun : isSetup s.phase = false) (h : machineCycle s = .next t) :
    RunFrame s t := by
  rw [machineCycle_running s hrun, phaseOutcome] at h
  split at h <;> cases h
  exact runFrame_phaseCycle _ _ s

/-- The command in flight is that of `KIND`, `CMD0` and `CMD1`. -/
theorem inFlight_of_registers {s t : State} (hkind : t.kind = s.kind) (hcmd0 : t.cmd0 = s.cmd0)
    (hcmd1 : t.cmd1 = s.cmd1) : t.inFlight = s.inFlight := by
  simp only [State.inFlight, hkind, hcmd0, hcmd1]

/-! ### What a host may write (20_memory R70) -/

theorem frame_hostAct (a : HostAction) (s t : State) (h : hostAct a s = some t) :
    Frame [.txq, .rxq, .irq, .received] s t := by
  rcases hostAct_some_cases a s t h with ⟨w, -, -, rfl⟩ | ⟨w, rest, -, -, rfl⟩ | ⟨-, rfl⟩ | ⟨-, rfl⟩ <;>
    simp [frame_iff]

theorem frame_hostTurn (s : State) : Frame [.txq, .rxq, .irq, .pending, .received, .host] s (hostTurn s) := by
  have kept := registersKept_hostTurn s
  simp [frame_iff, kept.cfg, kept.phase, kept.kind, kept.tmr, kept.cmd0, kept.cmd1, kept.y, kept.cnt, kept.pindir,
    kept.out, kept.cycle, kept.trace, kept.events, kept.env, kept.finished]

/-! ### What a cycle reads of the environment (20_memory R64) -/

/-- `f` neither reads nor writes the environment. -/
def IgnoresEnv (f : State → State) : Prop :=
  ∀ (s : State) (e : List Pins), f { s with env := e } = { f s with env := e }

theorem ignoresEnv_goto (p : Phase) : IgnoresEnv (State.goto · p) := fun _ _ => rfl

theorem ignoresEnv_loopBack (first exit : Phase) : IgnoresEnv (loopBack first exit) := fun s e => by
  unfold loopBack
  split <;> rfl

theorem ignoresEnv_startTimed (t : Nat) (wait : Phase) (next : State → State) (hn : IgnoresEnv next) :
    IgnoresEnv (startTimed t wait next) := fun s e => by
  unfold startTimed
  split
  · exact hn (s.setTmr (t - 1)) e
  · rfl

theorem ignoresEnv_waitTimed (wait : Phase) (next : State → State) (hn : IgnoresEnv next) :
    IgnoresEnv (waitTimed wait next) := fun s e => by
  unfold waitTimed
  dsimp only
  split
  · exact hn (s.setTmr (s.tmr - 1)) e
  · rfl

theorem ignoresEnv_afterPulse (k : Kind) : IgnoresEnv (afterPulse k) := by
  cases k with
  | addrLatch | dataInput => exact ignoresEnv_loopBack _ _
  | _ => exact ignoresEnv_goto _

theorem ignoresEnv_placePayload (p : Word) : IgnoresEnv (placePayload p) := fun s e =>
  ignoresEnv_startTimed _ _ _ (ignoresEnv_goto .wRise)
    ((s.setOut (setPayload (setBit s.out pinWeb false) p)).record .placement) e

theorem ignoresEnv_placeCycle (k : Kind) : IgnoresEnv (placeCycle k) := fun s e => by
  unfold placeCycle
  split
  · exact ignoresEnv_placePayload s.cmd1 s e
  · unfold placeFromTxq
    dsimp only
    split
    · rfl
    · next p rest _ => exact ignoresEnv_placePayload p ((s.setTxq rest).record (.pop p)) e

/-- `R_SAMPLE` reads the byte on the bus and no more of the environment. -/
theorem readSample_env (s : State) (e : List Pins) (hbyte : ({ s with env := e } : State).sampledByte = s.sampledByte) :
    readSample { s with env := e } = { readSample s with env := e } := by
  unfold readSample
  rw [hbyte]
  dsimp only
  split
  · exact ignoresEnv_startTimed s.cfg.tHold .rHigh afterRead (ignoresEnv_loopBack _ _)
      (((s.setRxq (s.rxq ++ [d8Word s.sampledByte])).record (.readSample s.sampledByte)).setOut
        (setBit s.out pinReb true)) e
  · rfl

/-- Only `R_SAMPLE`, by the sampled byte, and `WAIT_RBB` read the environment. -/
theorem phaseCycle_env (k : Kind) (p : Phase) (s : State) (e : List Pins) (hwait : p ≠ .waitRbb)
    (hbyte : p = .rSample → ({ s with env := e } : State).sampledByte = s.sampledByte) :
    phaseCycle k p { s with env := e } = { phaseCycle k p s with env := e } := by
  cases p with
  | setupA | setupB | bbEmit | clExit | alExit | signal => rfl
  | wPlace => exact ignoresEnv_placeCycle k s e
  | wLow | rLow => exact ignoresEnv_waitTimed _ _ (ignoresEnv_goto _) s e
  | wRise =>
    exact ignoresEnv_startTimed s.cfg.tHold .wHigh _ (ignoresEnv_afterPulse k)
      ((s.setOut (setBit s.out pinWeb true)).record (.latchPulse s.kind)) e
  | wHigh => exact ignoresEnv_waitTimed _ _ (ignoresEnv_afterPulse k) s e
  | rFall =>
    exact ignoresEnv_startTimed s.cfg.tRsettle .rLow _ (ignoresEnv_goto .rSample)
      (s.setOut (setBit s.out pinReb false)) e
  | rSample => exact readSample_env s e (hbyte rfl)
  | rHigh => exact ignoresEnv_waitTimed _ _ (ignoresEnv_loopBack _ _) s e
  | waitRbb => exact absurd rfl hwait

theorem ignoresEnv_startCommand (i : Instr) : IgnoresEnv (startCommand i) := fun s e => by
  unfold startCommand
  cases i.kind <;> rfl

/-- The cycles of SETUP take nothing from the environment. -/
theorem machineCycle_setup_env (s : State) (e : List Pins) (h : isSetup s.phase = true) :
    machineCycle { s with env := e } = mapNext (fun t => { t with env := e }) (machineCycle s) := by
  rcases fetch_cases s with ⟨hp, hq, -⟩ | ⟨w, hp, hq, -⟩ | ⟨w, v, rest, hp, hq, -⟩ | ⟨hp, hq, -⟩ |
    ⟨v, rest, hp, hq, -⟩ | ⟨ha, hb, -⟩
  · have hpops : popsTxq s = true := (popsTxq_iff s).mpr (.inl hp)
    rw [machineCycle_of_txEmpty s hpops hq, machineCycle_of_txEmpty { s with env := e } hpops hq]
    rfl
  · rw [machineCycle_of_one_word s w hp hq, machineCycle_of_one_word { s with env := e } w hp hq]
    rfl
  · rw [machineCycle_of_two_words s w v rest hp hq, machineCycle_of_two_words { s with env := e } w v rest hp hq]
    exact congrArg _ (ignoresEnv_startCommand _ (((loadCmd0 w (v :: rest) s).setTxq rest).record (.pop v)) e)
  · have hpops : popsTxq s = true := (popsTxq_iff s).mpr (.inr (.inl hp))
    rw [machineCycle_of_txEmpty s hpops hq, machineCycle_of_txEmpty { s with env := e } hpops hq]
    rfl
  · rw [machineCycle_of_second_word s v rest hp hq, machineCycle_of_second_word { s with env := e } v rest hp hq]
    exact congrArg _ (ignoresEnv_startCommand _ ((s.setTxq rest).record (.pop v)) e)
  · exact absurd ((isSetup_iff _).mp h) (by simp [ha, hb])

/-- Outside `WAIT_RBB` another environment changes nothing but itself, when `R_SAMPLE` samples the same byte from it. -/
theorem machineCycle_env (s : State) (e : List Pins) (hwait : s.phase ≠ .waitRbb)
    (hbyte : s.phase = .rSample → ({ s with env := e } : State).sampledByte = s.sampledByte) :
    machineCycle { s with env := e } = mapNext (fun t => { t with env := e }) (machineCycle s) := by
  by_cases h : isSetup s.phase = true
  · exact machineCycle_setup_env s e h
  · have hrun := Bool.eq_false_of_not_eq_true h
    rw [machineCycle_running s hrun, machineCycle_running { s with env := e } hrun]
    simp only [phaseOutcome, phaseCycle_env s.kind s.phase s e hwait hbyte]
    split <;> rfl

/-- Pins 7 to 0 are all that the sampled byte takes from the environment. -/
theorem sampledByte_of_ext {s t : State} (hpindir : t.pindir = s.pindir) (hout : t.out = s.out)
    (hext : ∀ k : Nat, k < 8 → t.ext.getLsbD k = s.ext.getLsbD k) : t.sampledByte = s.sampledByte := by
  refine BitVec.eq_of_getLsbD_eq fun k hk => ?_
  rw [getLsbD_sampledByte, getLsbD_sampledByte, level_eq t k (by omega), level_eq s k (by omega), hpindir, hout,
    hext k hk]

/-- Settles O33: of the environment a cycle outside `WAIT_RBB` takes at most the byte on pins 7 to 0; the hosts and the
cycles after SETUP write within their frames, which hold no register of the running command. -/
theorem nothingDivertsARunningCommand : Obligations.NothingDivertsARunningCommand := by
  refine ⟨?_, frame_hostAct, ?_, ?_⟩
  · intro s a b rest hwait hpins
    have hbyte : ({ s with env := a :: rest } : State).sampledByte =
        ({ s with env := b :: rest } : State).sampledByte :=
      sampledByte_of_ext rfl rfl fun k hk => hpins k (by omega)
    exact machineCycle_env { s with env := b :: rest } (a :: rest) hwait fun _ => hbyte
  · intro s
    have hframe := frame_hostTurn s
    exact ⟨hframe,
      inFlight_of_registers (hframe .kind (by decide)) (hframe .cmd0 (by decide)) (hframe .cmd1 (by decide))⟩
  · intro s t hrun h
    have hframe := machineCycle_runFrame s t hrun h
    have hkind : t.kind = s.kind := hframe .kind (by decide)
    exact ⟨hkind, inFlight_of_registers hkind (hframe .cmd0 (by decide)) (hframe .cmd1 (by decide)),
      hframe .pindir (by decide), hframe .y (by decide)⟩

end Sys2Proof.Machine

/-! PROOFS. 30_encoding R91, R101, R102: the decoder and the encoder are inverse to each other. -/

namespace Sys2Proof

/-! ### The decoder's rows, by the id of the first word (30_encoding R102) -/

/-- The low three bits of the id, as the row of ids 8 to 15 reads them from the first word. -/
theorem extractLsb'_eq_cmdIdField (w : Word) : w.extractLsb' 28 3 = (cmdIdField w).extractLsb' 0 3 := by
  apply BitVec.eq_of_getLsbD_eq
  intro j hj
  simp [cmdIdField, hj, show j < 4 by omega]

/-- An id from 8 on is a 1 bit in front of its low three bits. -/
theorem append_low_of_eight_le (id : BitVec 4) (h : 8 ≤ id.toNat) : 1#1 ++ id.extractLsb' 0 3 = id := by
  revert id
  decide

theorem decodeHead_cmdId (m : Id5Mode) (c0 c1 : Word) : (decodeHead m c0 c1).cmdId = cmdIdField c0 := by
  unfold decodeHead
  split
  case h_6 hid => cases m <;> exact (BitVec.eq_of_toNat_eq hid).symm
  case h_9 h0 h1 h2 h3 h4 h5 h6 h7 =>
    simp only [imp_false] at h0 h1 h2 h3 h4 h5 h6 h7
    rw [Instr.cmdId, extractLsb'_eq_cmdIdField]
    exact append_low_of_eight_le _ (by omega)
  all_goals
    next hid => exact (BitVec.eq_of_toNat_eq hid).symm

theorem decodeHead_transferCount (m : Id5Mode) (c0 c1 : Word) :
    (decodeHead m c0 c1).transferCount = transferCountField c0 := by
  unfold decodeHead
  split
  case h_6 => cases m <;> rfl
  all_goals rfl

theorem decodeHead_pinDirections (m : Id5Mode) (c0 c1 : Word) :
    (decodeHead m c0 c1).pinDirections = pinDirectionsField c0 := by
  unfold decodeHead
  split
  case h_6 => cases m <;> rfl
  all_goals rfl

theorem decodeHead_cmd1 (m : Id5Mode) (c0 c1 : Word) : (decodeHead m c0 c1).cmd1 = c1 := by
  unfold decodeHead
  split
  case h_6 => cases m <;> rfl
  all_goals rfl

/-- Encoding a decoded pair gives its two words: the decoder drops no bit of them. -/
theorem encode_decodeHead (m : Id5Mode) (c0 c1 : Word) : encode (decodeHead m c0 c1) = [c0, c1] := by
  rw [encode, decodeHead_cmdId, decodeHead_transferCount, decodeHead_pinDirections, decodeHead_cmd1, cmd0Word_fields]

/-- The id of a command in the row of ids 8 to 15. -/
theorem toNat_high (low : BitVec 3) : (1#1 ++ low).toNat = 8 + low.toNat ∧ (1#1 ++ low).extractLsb' 0 3 = low := by
  revert low
  decide

/-- Decoding the head of a well-formed command gives the command back: its id selects its own row. -/
theorem decodeHead_encode (m : Id5Mode) (i : Instr) (h : i.wellFormed m = true) :
    decodeHead m (cmd0Word i.cmdId i.transferCount i.pinDirections) i.cmd1 = i := by
  unfold decodeHead
  rw [extractLsb'_eq_cmdIdField, cmdIdField_cmd0Word, transferCountField_cmd0Word, pinDirectionsField_cmd0Word]
  cases i with
  | bitbang | cmdLatch | addrLatch | dataOutput | dataInput => rfl
  | signal =>
    cases m with
    | signal => rfl
    | waitRbb => cases h
  | waitRbbFive =>
    cases m with
    | signal => cases h
    | waitRbb => rfl
  | waitRbbSixSeven low tc pd c1 =>
    obtain rfl | rfl := BitVec.eq_zero_or_eq_one low
    · rfl
    · rfl
  | waitRbbHigh low tc pd c1 =>
    obtain ⟨hid, hlow⟩ := toNat_high low
    simp only [Instr.cmdId, Instr.transferCount, Instr.pinDirections, Instr.cmd1, hlow, hid, Nat.add_comm 8]

/-- Settles O4: one direction by the command's row, the other because the four fields are the two words. -/
theorem decodeEncodeRoundTrip : Obligations.DecodeEncodeRoundTrip := by
  intro m i rest h
  refine ⟨?_, encode_decodeHead m⟩
  rw [encode, List.cons_append, List.singleton_append, decodeWords, decodeHead_encode m i h]

end Sys2Proof

namespace Sys2Proof.Machine

/-! ### The frame's length (30_encoding R109, R116) -/

/-- The kinds with payload words after cmd_1 are those of ids 2 and 4. -/
theorem classify_payload_iff (m : Id5Mode) (id : BitVec 4) :
    (classify m id = .addrLatch ∨ classify m id = .dataInput) ↔ (id.toNat = 2 ∨ id.toNat = 4) := by
  cases m <;> revert id <;> decide

/-- Only ids 2 and 4 carry payload words after cmd_1, under both variants. -/
theorem frameLength_eq (m : Id5Mode) (c0 : Word) :
    frameLength m c0 =
      2 + if (cmdIdField c0).toNat = 2 ∨ (cmdIdField c0).toNat = 4 then (transferCountField c0).toNat + 1 else 0 := by
  unfold frameLength
  congr 1
  generalize cmdIdField c0 = id
  have hkind : payloadWords (classify m id) (transferCountField c0) =
      if classify m id = .addrLatch ∨ classify m id = .dataInput then (transferCountField c0).toNat + 1 else 0 := by
    cases classify m id <;> rfl
  simp only [hkind, classify_payload_iff]

/-- What `decode` answers on a head and the words after it: the frame's payload words are taken when they are all there,
else the list is truncated (30_encoding R114). -/
theorem decodeFrame_cases (m : Id5Mode) (c0 c1 : Word) (tail : List Word) :
    (frameLength m c0 ≤ tail.length + 2 ∧
      ∃ c : Command, decodeFrame m (c0 :: c1 :: tail) = .ok (c, tail.drop (frameLength m c0 - 2))) ∨
    (tail.length + 2 < frameLength m c0 ∧ decodeFrame m (c0 :: c1 :: tail) = .error .truncated) := by
  have hlen := frameLength_eq m c0
  by_cases hafter : (cmdIdField c0).toNat = 2 ∨ (cmdIdField c0).toNat = 4
  · rw [if_pos hafter] at hlen
    rw [hlen, Nat.add_sub_cancel_left]
    by_cases hshort : tail.length < (transferCountField c0).toNat + 1
    · refine .inr ⟨by omega, ?_⟩
      rcases hafter with hid | hid <;> simp [decodeFrame, paylen, hid, hshort]
    · refine .inl ⟨by omega, ?_⟩
      rcases hafter with hid | hid <;> simp [decodeFrame, paylen, hid, hshort]
  · rw [if_neg hafter] at hlen
    refine .inl ⟨by omega, ?_⟩
    simp only [hlen, Nat.add_zero, Nat.sub_self, List.drop_zero]
    by_cases hin : (cmdIdField c0).toNat = 0 ∨ (cmdIdField c0).toNat = 1
    · exact ⟨_, decodeFrame_payload_in_cmd1 m c0 c1 tail hin⟩
    · exact ⟨_, decodeFrame_no_payload m c0 c1 tail (by omega) (by omega) (by omega) (by omega)⟩

theorem two_le_frameLength (m : Id5Mode) (c0 : Word) : 2 ≤ frameLength m c0 := Nat.le_add_right _ _

/-- Settles O7: a frame that is answered is the first of `decodeFrame_cases`, a list long enough is not the second. -/
theorem decodeConsumesFrameLength : Obligations.DecodeConsumesFrameLength := by
  refine ⟨?_, ?_, fun c0 => by rw [frameLength_eq, frameLength_eq]⟩
  · intro m c0 c1 ws rest c h
    have htwo := two_le_frameLength m c0
    rcases decodeFrame_cases m c0 c1 ws with ⟨hlen, d, hd⟩ | ⟨-, herr⟩
    · rw [h] at hd
      obtain ⟨-, rfl⟩ := Prod.mk.inj (Except.ok.inj hd)
      obtain ⟨k, hk⟩ := Nat.exists_eq_add_of_le' htwo
      rw [hk] at hlen ⊢
      exact ⟨rfl, by simp; omega⟩
    · rw [h] at herr
      cases herr
  · intro m c0 ws hlen hhead
    have htwo := two_le_frameLength m c0
    match ws with
    | [] => simp at hlen; omega
    | [_] => simp at hlen; omega
    | c :: c1 :: tail =>
      obtain rfl : c = c0 := by simpa using hhead
      rcases decodeFrame_cases m c c1 tail with ⟨-, d, hd⟩ | ⟨hshort, -⟩
      · exact ⟨d, _, hd⟩
      · simp at hlen
        omega

/-! ### When the encoder succeeds (30_encoding R112, R113) -/

theorem encodeFrame_ok_iff (id tc pd : Nat) (payload : List Nat) :
    (∃ ws : List Word, encodeFrame id tc pd payload = .ok ws) ↔ encodeCheck id tc pd payload = none :=
  ⟨fun ⟨ws, h⟩ => (encodeFrame_eq_ok id tc pd payload ws h).1, fun h => ⟨_, encodeFrame_of_check id tc pd payload h⟩⟩

/-- `encode_cmd` of a looping kind of the variant is `encode` of the wire value for a count in range. -/
theorem encodeCmd_looping (m : Id5Mode) (k : Kind) (count pd : Nat) (payload : List Nat) (hk : isLooping k = true) :
    encodeCmd m k count pd payload =
      if 1 ≤ count ∧ count ≤ 4096 then encodeFrame (canonicalId m k) (count - 1) pd payload
      else .error (.encodingRange (.count count)) := by
  have hsignal : k ≠ .signal := by rintro rfl; cases hk
  by_cases hcount : 1 ≤ count ∧ count ≤ 4096 <;> simp [encodeCmd, hsignal, hk, hcount]

theorem encodeCmd_dataOutput_ok_iff (m : Id5Mode) (count pd : Nat) :
    (∃ ws : List Word, encodeCmd m .dataOutput count pd [] = .ok ws) ↔ (1 ≤ count ∧ count ≤ 4096 ∧ pd ≤ 0xFFFF) := by
  rw [encodeCmd_looping m .dataOutput count pd [] rfl]
  split
  · next hcount =>
    rw [encodeFrame_ok_iff, encodeCheck_eq_none_iff]
    simp [canonicalId, paylen]
    omega
  · next hcount => simp; omega

/-- Settles O6: each success is that of the five checks; the wire value of a count is one less (R113). -/
theorem encodeSucceedsExactlyInRange : Obligations.EncodeSucceedsExactlyInRange := by
  refine ⟨?_, encodeCmd_dataOutput_ok_iff, ?_⟩
  · intro id tc pd payload
    rw [encodeFrame_ok_iff, encodeCheck_eq_none_iff]
  · intro m count pd ws h
    obtain ⟨hlo, hhi, -⟩ := (encodeCmd_dataOutput_ok_iff m count pd).mp ⟨ws, h⟩
    obtain ⟨-, hframe⟩ := encodeCmd_eq_ok m .dataOutput count pd [] ws h
    obtain ⟨-, rfl⟩ := encodeFrame_eq_ok _ _ pd [] ws hframe
    refine ⟨inputHead 3 (count - 1) pd, encodeResult_no_payload 3 _ pd [] (by decide) (by decide) (by decide)
      (by decide), ?_⟩
    rw [transferCountField_inputHead 3 (count - 1) pd (by omega)]
    omega

/-- Settles O1: one word pair per row, each decoded by evaluation of the decoder. -/
theorem sampleWordsDecode : Obligations.SampleWordsDecode := by
  refine ⟨?_, ?_, ?_, ?_, ?_, ?_, ?_, ?_, ?_⟩ <;> decide

end Sys2Proof.Machine

/-! PROOFS. 40_dispatch R144, R145 and R151, 41 to 43: one cycle of each phase, as its whole effect. -/

namespace Sys2Proof.Machine

/-! ### Frames -/

theorem Frame.refl (ch : List Reg) (s : State) : Frame ch s s := by
  rw [frame_iff]
  simp

theorem Frame.mono {ch ch' : List Reg} {s t : State} (h : Frame ch s t) (hsub : ch ⊆ ch') : Frame ch' s t :=
  fun r hr => h r fun hm => hr (hsub hm)

theorem frame_goto (p : Phase) (s : State) : Frame [.phase] s (s.goto p) := by
  rw [frame_iff]
  simp

theorem frame_setTmr (n : Nat) (s : State) : Frame [.tmr] s (s.setTmr n) := by
  rw [frame_iff]
  simp

theorem frame_loopBack (first exit : Phase) (s : State) : Frame [.phase, .cnt] s (loopBack first exit s) := by
  rcases loopBack_cases first exit s with ⟨-, h⟩ | ⟨-, h⟩ <;> rw [h, frame_iff] <;> simp

theorem frame_afterPulse (k : Kind) (s : State) : Frame [.phase, .cnt] s (afterPulse k s) := by
  cases k with
  | addrLatch | dataInput => exact frame_loopBack _ _ s
  | _ => exact (frame_goto _ s).mono (by simp)

/-! ### The bits of `OUT` -/

/-- Frames of one bit: every other bit is kept. -/
theorem outKeptBut_of_setBit (k : Nat) (b : Bool) (hk : k < 16) (s t : State) (h : t.out = setBit s.out k b) :
    t.out.getLsbD k = b ∧ OutKeptBut [k] s t := by
  rw [h]
  refine ⟨by rw [getLsbD_setBit _ _ _ _ hk, if_pos rfl], fun i hi => ?_⟩
  rw [h, getLsbD_setBit _ _ _ _ hk, if_neg (by simpa using hi)]

theorem mem_busBits_iff (i : Nat) : i ∈ busBits ↔ i < 10 := by
  simp only [busBits, List.mem_cons, List.not_mem_nil, or_false]
  omega

/-- The payload on the bus latches, with `web` as it is. -/
theorem latched_of_setPayload (p : Word) (s t : State) (h : t.out = setPayload s.out p) :
    BusLatched p t ∧ OutKeptBut busBits s t := by
  refine ⟨fun i hi => ?_, fun i hi => ?_⟩
  · rw [h, getLsbD_setPayload, if_pos hi]
  · rw [h, getLsbD_setPayload, if_neg (by rwa [mem_busBits_iff] at hi)]

/-! ### Loop control and timers (40_dispatch R150, R151) -/

theorem loopedBack_loopBack (first exit : Phase) (s u : State) (hcnt : u.cnt = s.cnt) :
    LoopedBack first exit s (loopBack first exit u) := by
  rcases loopBack_cases first exit u with ⟨h0, h⟩ | ⟨h0, h⟩ <;> rw [h] <;> rw [hcnt] at h0
  · exact ⟨fun _ => ⟨rfl, hcnt⟩, fun hne => absurd h0 hne⟩
  · refine ⟨fun he => absurd he h0, fun _ => ⟨rfl, ?_⟩⟩
    rw [State.goto_cnt, State.setCnt_cnt, hcnt]
    exact cnt_pred_toNat s.cnt h0

theorem pulseSuccessor_afterPulse (k : Kind) (s u : State) (hk : isWriteKind k = true) (hcnt : u.cnt = s.cnt) :
    PulseSuccessor k s (afterPulse k u) := by
  cases k with
  | cmdLatch => exact ⟨rfl, hcnt⟩
  | addrLatch => exact loopedBack_loopBack .wPlace .alExit s u hcnt
  | dataInput => exact loopedBack_loopBack .wPlace .setupA s u hcnt
  | bitbang | dataOutput | signal | waitRbb => cases hk

/-- The start of a timed phase pair writes `TMR` and, by its successor, `PHASE` and `CNT`. -/
theorem startTimed_spec (n : Nat) (wait : Phase) (next : State → State) (s : State)
    (hnext : ∀ u : State, Frame [.phase, .cnt] u (next u)) :
    Frame [.tmr, .phase, .cnt] s (startTimed n wait next s) ∧ (startTimed n wait next s).tmr = n - 1 ∧
    (n = 1 → startTimed n wait next s = next (s.setTmr 0)) ∧
    (n ≠ 1 → (startTimed n wait next s).phase = wait ∧ (startTimed n wait next s).cnt = s.cnt) := by
  rcases startTimed_cases n wait next s with ⟨hn, h⟩ | ⟨hn, h⟩ <;> rw [h]
  · refine ⟨(frame_setTmr 0 s).trans (hnext _) (by simp) (by simp), ?_, fun _ => rfl, fun hne => absurd hn hne⟩
    rw [show (next (s.setTmr 0)).tmr = (s.setTmr 0).tmr from hnext _ .tmr (by simp), hn]
    rfl
  · exact ⟨(frame_setTmr _ s).trans (frame_goto _ _) (by simp) (by simp), rfl, fun he => absurd he hn,
      fun _ => ⟨rfl, rfl⟩⟩

/-- A waiting cycle with a positive `TMR`. -/
theorem waitTimed_spec (wait : Phase) (next : State → State) (s : State) (htmr : 1 ≤ s.tmr)
    (hnext : ∀ u : State, Frame [.phase, .cnt] u (next u)) :
    Frame [.tmr, .phase, .cnt] s (waitTimed wait next s) ∧ (waitTimed wait next s).tmr + 1 = s.tmr ∧
    (s.tmr ≠ 1 → (waitTimed wait next s).phase = wait ∧ (waitTimed wait next s).cnt = s.cnt) ∧
    (s.tmr = 1 → waitTimed wait next s = next (s.setTmr 0)) := by
  rcases waitTimed_cases wait next s with ⟨hn, h⟩ | ⟨hn, h⟩ <;> rw [h]
  · refine ⟨(frame_setTmr 0 s).trans (hnext _) (by simp) (by simp), ?_, fun hne => by omega, fun _ => rfl⟩
    rw [show (next (s.setTmr 0)).tmr = (s.setTmr 0).tmr from hnext _ .tmr (by simp), State.setTmr_tmr]
    omega
  · refine ⟨(frame_setTmr _ s).trans (frame_goto _ _) (by simp) (by simp), ?_, fun _ => ⟨rfl, rfl⟩, fun he => by omega⟩
    rw [State.goto_tmr, State.setTmr_tmr]
    omega

/-! ### The cycle of a phase, for the commands it belongs to -/

/-- The cycle of a command in a phase of its kind is the phase's row of the table. -/
theorem exec_of_phase (i : Instr) (s : State) (p : Phase) (hp : s.phase = p) (hrun : isSetup p = false)
    (hbelongs : phaseBelongs i.kind p = true) : exec i s = .next (phaseCycle i.kind p s) := by
  subst hp
  rw [exec_running i s hrun, phaseOutcome, if_pos hbelongs]

/-- Settles O14. -/
theorem bitbangEmitsPayload : Obligations.BitbangEmitsPayload := by
  intro tc pd c1 s hp
  obtain ⟨hbus, hkept⟩ := latched_of_setPayload s.cmd1 s (phaseCycle .bitbang .bbEmit s) rfl
  refine ⟨_, exec_of_phase (.bitbang tc pd c1) s .bbEmit hp rfl rfl, hbus, hkept, rfl, rfl, ?_⟩
  rw [frame_iff]
  simp [phaseCycle]

/-- The placing part of `W_PLACE` (41_pin_commands R176). -/
theorem placed_placePayload (p : Word) (s u : State) (hframe : Frame [.txq, .events] s u) :
    Placed p s (placePayload p u) ∧ (placePayload p u).txq = u.txq ∧
      (placePayload p u).events = u.events ++ [.placement] := by
  have hcfg : u.cfg = s.cfg := hframe .cfg (by simp)
  have hout : u.out = s.out := hframe .out (by simp)
  have heq : placePayload p u =
      (((u.setOut (setPayload (setBit u.out pinWeb false) p)).record .placement).setTmr (s.cfg.tSetup - 1)).goto
        (if s.cfg.tSetup = 1 then .wRise else .wLow) := by
    rw [placePayload, startTimed_goto, hcfg]
  have hbits : ∀ i, (placePayload p u).out.getLsbD i =
      if i < 10 then p.getLsbD i else if i = 13 then false else s.out.getLsbD i := by
    intro i
    rw [heq, ← hout]
    exact getLsbD_place u.out p i
  refine ⟨⟨hbits 13, fun i hi => (hbits i).trans (if_pos hi), fun i hi => ?_, by simp [heq], by simp [heq], ?_⟩,
    by simp [heq], by simp [heq]⟩
  · simp only [List.mem_cons, mem_busBits_iff, not_or] at hi
    rw [hbits, if_neg hi.2, if_neg hi.1]
  · refine hframe.trans (ch₂ := [.out, .tmr, .phase, .events]) ?_ (by simp) (by simp)
    rw [heq, frame_iff]
    simp

/-- `W_PLACE` with a popped payload (41_pin_commands R176). -/
theorem exec_place_of_pop (i : Instr) (s : State) (hi : i.kind = .addrLatch ∨ i.kind = .dataInput)
    (hp : s.phase = .wPlace) : exec i s = .next (placeFromTxq s) := by
  have hbelongs : phaseBelongs i.kind .wPlace = true := by rcases hi with h | h <;> rw [h] <;> rfl
  have hne : i.kind ≠ .cmdLatch := by rcases hi with h | h <;> rw [h] <;> decide
  rw [exec_of_phase i s .wPlace hp rfl hbelongs, phaseCycle, placeCycle, if_neg hne]

/-- Settles O15: the three cases of `placeCycle`. -/
theorem writePulsePlacement : Obligations.WritePulsePlacement := by
  refine ⟨?_, ?_, ?_⟩
  · intro tc pd c1 s hp
    obtain ⟨hplaced, htxq, hevents⟩ := placed_placePayload s.cmd1 s s (Frame.refl _ s)
    exact ⟨_, exec_of_phase (.cmdLatch tc pd c1) s .wPlace hp rfl rfl, hplaced, htxq, hevents⟩
  · intro i s p rest hi hp hq
    have hpop : Frame [.txq, .events] s ((s.setTxq rest).record (.pop p)) := by
      rw [frame_iff]
      simp
    obtain ⟨hplaced, htxq, hevents⟩ := placed_placePayload p s _ hpop
    have hcycle : placeFromTxq s = placePayload p ((s.setTxq rest).record (.pop p)) := by
      rw [placeFromTxq, hq]
    rw [← hcycle] at hplaced htxq hevents
    exact ⟨_, exec_place_of_pop i s hi hp, hplaced, htxq, by simp [hevents]⟩
  · intro i s hi hp hq
    have hcycle : placeFromTxq s = s.record (.stall .txEmpty) := by
      rw [placeFromTxq, hq]
      rfl
    refine ⟨_, exec_place_of_pop i s hi hp, by simp [hcycle], ?_⟩
    rw [hcycle, frame_iff]
    simp

theorem phaseBelongs_of_isWriteKind (k : Kind) (h : isWriteKind k = true) :
    phaseBelongs k .wPlace = true ∧ phaseBelongs k .wLow = true ∧ phaseBelongs k .wRise = true ∧
      phaseBelongs k .wHigh = true := by
  revert h
  cases k <;> decide

/-- Settles O16: `web` rises, and then the timed phase pair of `T_HOLD` cycles starts. -/
theorem writePulseRise : Obligations.WritePulseRise := by
  intro i s hk hp
  obtain ⟨-, -, hbelongs, -⟩ := phaseBelongs_of_isWriteKind i.kind hk
  obtain ⟨hframe, htmr, hone, hmore⟩ := startTimed_spec s.cfg.tHold .wHigh (afterPulse i.kind)
    ((s.setOut (setBit s.out pinWeb true)).record (.latchPulse s.kind)) (frame_afterPulse i.kind)
  obtain ⟨hweb, hkept⟩ := outKeptBut_of_setBit 13 true (by decide) s (phaseCycle i.kind .wRise s)
    (hframe .out (by simp))
  refine ⟨_, exec_of_phase i s .wRise hp rfl hbelongs, hweb, hkept, htmr, hframe .events (by simp), ?_, hmore, ?_⟩
  · intro h1
    change PulseSuccessor i.kind s (startTimed _ _ _ _)
    rw [hone h1]
    exact pulseSuccessor_afterPulse i.kind s _ hk rfl
  · have hdata : Frame [.out, .events] s ((s.setOut (setBit s.out pinWeb true)).record (.latchPulse s.kind)) := by
      rw [frame_iff]
      simp
    exact hdata.trans hframe (by simp) (by simp)

/-- Settles O17: the four waiting phases are the same timed wait with different successors. -/
theorem timedPhasesWait : Obligations.TimedPhasesWait := by
  intro i s htmr hcases
  rcases hcases with ⟨hk, hp | hp⟩ | ⟨hk, hp | hp⟩
  · obtain ⟨-, hbelongs, -, -⟩ := phaseBelongs_of_isWriteKind i.kind hk
    obtain ⟨hframe, hpred, hmore, hone⟩ := waitTimed_spec .wLow (State.goto · .wRise) s htmr
      fun u => (frame_goto .wRise u).mono (by simp)
    refine ⟨_, exec_of_phase i s .wLow hp rfl hbelongs, hpred, hframe, fun h => by rw [hp]; exact hmore h, fun h => ?_⟩
    change (_ → (waitTimed _ _ _).phase = _ ∧ (waitTimed _ _ _).cnt = _) ∧ _
    rw [hone h]
    simp [hp]
  · obtain ⟨-, -, -, hbelongs⟩ := phaseBelongs_of_isWriteKind i.kind hk
    obtain ⟨hframe, hpred, hmore, hone⟩ := waitTimed_spec .wHigh (afterPulse i.kind) s htmr (frame_afterPulse i.kind)
    refine ⟨_, exec_of_phase i s .wHigh hp rfl hbelongs, hpred, hframe, fun h => by rw [hp]; exact hmore h, fun h => ?_⟩
    have hsucc : PulseSuccessor i.kind s (waitTimed .wHigh (afterPulse i.kind) s) := by
      rw [hone h]
      exact pulseSuccessor_afterPulse i.kind s _ hk rfl
    exact ⟨by simp [hp], fun _ => hsucc, by simp [hp], by simp [hp]⟩
  · obtain ⟨hframe, hpred, hmore, hone⟩ := waitTimed_spec .rLow (State.goto · .rSample) s htmr
      fun u => (frame_goto .rSample u).mono (by simp)
    refine ⟨_, exec_of_phase i s .rLow hp rfl (by rw [hk]; rfl), hpred, hframe, fun h => by rw [hp]; exact hmore h,
      fun h => ?_⟩
    have hnext : (waitTimed .rLow (State.goto · .rSample) s).phase = .rSample ∧
        (waitTimed .rLow (State.goto · .rSample) s).cnt = s.cnt := by
      rw [hone h]
      exact ⟨rfl, rfl⟩
    exact ⟨by simp [hp], by simp [hp], fun _ => hnext, by simp [hp]⟩
  · obtain ⟨hframe, hpred, hmore, hone⟩ := waitTimed_spec .rHigh afterRead s htmr fun u => frame_loopBack _ _ u
    refine ⟨_, exec_of_phase i s .rHigh hp rfl (by rw [hk]; rfl), hpred, hframe, fun h => by rw [hp]; exact hmore h,
      fun h => ?_⟩
    have hnext : LoopedBack .rFall .setupA s (waitTimed .rHigh afterRead s) := by
      rw [hone h]
      exact loopedBack_loopBack .rFall .setupA s _ rfl
    exact ⟨by simp [hp], by simp [hp], by simp [hp], fun _ => hnext⟩

/-- Settles O18. -/
theorem latchEnableExits : Obligations.LatchEnableExits := by
  refine ⟨?_, ?_⟩
  · intro tc pd c1 s hp
    obtain ⟨hlow, hkept⟩ := outKeptBut_of_setBit 10 false (by decide) s (phaseCycle .cmdLatch .clExit s) rfl
    refine ⟨_, exec_of_phase (.cmdLatch tc pd c1) s .clExit hp rfl rfl, hlow, hkept, rfl, ?_⟩
    rw [frame_iff]
    simp [phaseCycle]
  · intro tc pd c1 s hp
    obtain ⟨hlow, hkept⟩ := outKeptBut_of_setBit 11 false (by decide) s (phaseCycle .addrLatch .alExit s) rfl
    refine ⟨_, exec_of_phase (.addrLatch tc pd c1) s .alExit hp rfl rfl, hlow, hkept, rfl, ?_⟩
    rw [frame_iff]
    simp [phaseCycle]

theorem readFall_eq (s : State) :
    readFall s = ((s.setOut (setBit s.out pinReb false)).setTmr (s.cfg.tRsettle - 1)).goto
      (if s.cfg.tRsettle = 1 then .rSample else .rLow) := by
  rw [readFall, startTimed_goto]

/-- Settles O19. -/
theorem readPulseFalls : Obligations.ReadPulseFalls := by
  intro tc pd c1 s hp
  have heq : phaseCycle .dataOutput .rFall s = _ := readFall_eq s
  obtain ⟨hlow, hkept⟩ := outKeptBut_of_setBit 14 false (by decide) s (phaseCycle .dataOutput .rFall s)
    (by rw [heq]; rfl)
  refine ⟨_, exec_of_phase (.dataOutput tc pd c1) s .rFall hp rfl rfl, hlow, hkept, congrArg State.tmr heq,
    congrArg State.phase heq, ?_⟩
  rw [Instr.kind, heq, frame_iff]
  simp

/-- The bits of the word pushed for a sampled byte (30_encoding R118). -/
theorem getLsbD_d8Word_sampledByte (s : State) (k : Nat) :
    (d8Word s.sampledByte).getLsbD k = (decide (k < 8) && s.level k) := by
  rw [d8Word, BitVec.getLsbD_setWidth, getLsbD_sampledByte]
  by_cases hk : k < 8
  · simp [hk, show k < 32 by omega]
  · simp [hk]

theorem encodeData_toNat (b : Byte) : encodeData b.toNat = .ok (d8Word b) := by
  have hb := b.isLt
  rw [encodeData, if_pos (by omega), BitVec.ofNat_toNat, BitVec.setWidth_eq]

/-- `R_SAMPLE` with room in `RXQ` (42_transfer_commands R203). -/
theorem readSample_of_room (s : State) (hroom : s.rxq.length < s.cfg.rxDepth) :
    readSample s = startTimed s.cfg.tHold .rHigh afterRead
      (((s.setRxq (s.rxq ++ [d8Word s.sampledByte])).record (.readSample s.sampledByte)).setOut
        (setBit s.out pinReb true)) := by
  rw [readSample, if_pos hroom]

theorem readSample_of_full (s : State) (hfull : ¬ s.rxq.length < s.cfg.rxDepth) :
    readSample s = s.record (.stall .rxFull) := by
  rw [readSample, if_neg hfull, State.stalled_eq]

/-- Settles O20: the two cases of `readSample`. -/
theorem readSamplePushes : Obligations.ReadSamplePushes := by
  refine ⟨?_, ?_⟩
  · intro tc pd c1 s hp hroom
    have heq : phaseCycle .dataOutput .rSample s = _ := readSample_of_room s hroom
    obtain ⟨hframe, htmr, hone, hmore⟩ := startTimed_spec s.cfg.tHold .rHigh afterRead
      (((s.setRxq (s.rxq ++ [d8Word s.sampledByte])).record (.readSample s.sampledByte)).setOut
        (setBit s.out pinReb true)) fun u => frame_loopBack _ _ u
    rw [← heq] at hframe htmr hone hmore
    obtain ⟨hhigh, hkept⟩ := outKeptBut_of_setBit 14 true (by decide) s (phaseCycle .dataOutput .rSample s)
      (hframe .out (by simp))
    refine ⟨_, d8Word s.sampledByte, s.sampledByte, exec_of_phase (.dataOutput tc pd c1) s .rSample hp rfl rfl,
      hframe .rxq (by simp), fun k hk => by rw [getLsbD_sampledByte, decide_eq_true hk, Bool.true_and],
      encodeData_toNat _,
      getLsbD_d8Word_sampledByte s, hhigh, hkept, htmr, hframe .events (by simp), fun h1 => ?_, hmore, ?_⟩
    · change LoopedBack _ _ _ (phaseCycle .dataOutput .rSample s)
      rw [hone h1]
      exact loopedBack_loopBack .rFall .setupA s _ rfl
    · have hdata : Frame [.rxq, .out, .events] s (((s.setRxq (s.rxq ++ [d8Word s.sampledByte])).record
          (.readSample s.sampledByte)).setOut (setBit s.out pinReb true)) := by
        rw [frame_iff]
        simp
      exact hdata.trans hframe (by simp) (by simp)
  · intro tc pd c1 s hp hfull
    have heq : phaseCycle .dataOutput .rSample s = _ := readSample_of_full s (by omega)
    refine ⟨_, exec_of_phase (.dataOutput tc pd c1) s .rSample hp rfl rfl, congrArg State.events heq, ?_⟩
    rw [Instr.kind, heq, frame_iff]
    simp

/-- Settles O21. -/
theorem signalRaisesFlag : Obligations.SignalRaisesFlag := by
  intro tc pd c1 s hp
  refine ⟨_, exec_of_phase (.signal tc pd c1) s .signal hp rfl rfl, rfl, rfl, rfl, ?_⟩
  rw [frame_iff]
  simp [phaseCycle]

theorem pollReady_ready (s : State) (hhigh : s.level pinRbb = true) :
    pollReady s = (s.record .rbbReady).goto .setupA := by
  rw [pollReady, if_pos hhigh]

/-- Settles O22: the dispatch of any id of the kind, and the two cases of `pollReady`. -/
theorem waitRbbPollsPin : Obligations.WaitRbbPollsPin := by
  intro i s hk
  have hpoll (hp : s.phase = .waitRbb) : exec i s = .next (pollReady s) :=
    exec_of_phase i s .waitRbb hp rfl (by rw [hk]; rfl)
  refine ⟨fun hsetup => ⟨_, exec_setup i s hsetup, by rw [startCommand, hk]; rfl⟩, fun hp hhigh => ?_, fun hp hlow => ?_⟩
  · have heq := pollReady_ready s hhigh
    refine ⟨_, hpoll hp, by simp [heq], by simp [heq], ?_⟩
    rw [heq, frame_iff]
    simp
  · rw [hpoll hp, pollReady_busy s hp hlow]

/-- Settles O23: SETUP belongs to every kind, so the phase is one of the table, which refuses foreign kinds. -/
theorem foreignPhaseRefused : Obligations.ForeignPhaseRefused := by
  intro i s hforeign
  have hrun : isSetup s.phase = false := by
    cases hp : s.phase with
    | setupA | setupB => rw [hp] at hforeign; cases hforeign
    | _ => rfl
  rw [exec_running i s hrun, phaseOutcome, hforeign]
  rfl

/-! ### SETUP (40_dispatch R144, R145) -/

/-- The bits of `OUT` after a dispatch (40_dispatch R147, R148). -/
theorem getLsbD_startCommand_out (i : Instr) (s : State) (j : Nat) :
    (startCommand i s).out.getLsbD j =
      if j = 12 then wpbLevel s.cfg.wpbTable i.kind
      else if j = 10 then decide (i.kind = .cmdLatch) || s.out.getLsbD 10
      else if j = 11 then decide (i.kind = .addrLatch) || s.out.getLsbD 11
      else s.out.getLsbD j := by
  have hwpb : (setBit s.out pinWpb (wpbLevel s.cfg.wpbTable i.kind)).getLsbD j = _ :=
    getLsbD_setBit s.out 12 j _ (by decide)
  have hraise : (startCommand i s).out.getLsbD j =
      if i.kind = .cmdLatch ∧ j = 10 ∨ i.kind = .addrLatch ∧ j = 11 then true
      else (setBit s.out pinWpb (wpbLevel s.cfg.wpbTable i.kind)).getLsbD j := by
    unfold startCommand
    cases i.kind with
    | cmdLatch => simp [raiseEnable, raiseCle, getLsbD_setBit, pinCle]
    | addrLatch => simp [raiseEnable, raiseAle, getLsbD_setBit, pinAle]
    | _ => simp [raiseEnable]
  rw [hraise, hwpb]
  by_cases h12 : j = 12
  · simp [h12]
  · by_cases h10 : j = 10
    · by_cases hk : i.kind = .cmdLatch <;> simp [h10, hk]
    · by_cases h11 : j = 11
      · by_cases hk : i.kind = .addrLatch <;> simp [h11, hk]
      · simp [h12, h10, h11]

/-- The registers a dispatch loads. -/
theorem startCommand_registers (i : Instr) (s : State) :
    (startCommand i s).cmd1 = i.cmd1 ∧ (startCommand i s).pindir = i.pinDirections ∧
    (startCommand i s).cnt = i.transferCount ∧ (startCommand i s).y = i.cmdId ∧ (startCommand i s).kind = i.kind ∧
    (startCommand i s).phase = firstPhase i.kind ∧
    (startCommand i s).events = s.events ++ [.dispatch i.kind i.cmdId] := by
  unfold startCommand
  cases i.kind <;> exact ⟨rfl, rfl, rfl, rfl, rfl, rfl, rfl⟩

theorem frame_startCommand (i : Instr) (s : State) :
    Frame [.cmd1, .pindir, .cnt, .y, .kind, .phase, .out, .events] s (startCommand i s) := by
  rw [frame_iff]
  unfold startCommand
  cases i.kind <;> simp [raiseEnable, raiseCle, raiseAle]

/-- Settles O13: in SETUP every meaning is `startCommand`. -/
theorem dispatchLoadsRegisters : Obligations.DispatchLoadsRegisters := by
  intro i s hsetup
  have hbits := getLsbD_startCommand_out i s
  obtain ⟨hcmd1, hpindir, hcnt, hy, hkind, hphase, hevents⟩ := startCommand_registers i s
  refine ⟨_, exec_setup i s hsetup, hcmd1, hpindir, hcnt, hy, hkind, hphase, hbits 12, hbits 10, hbits 11,
    fun j hj => ?_, hevents, frame_startCommand i s⟩
  simp only [List.mem_cons, List.not_mem_nil, or_false, not_or] at hj
  rw [hbits, if_neg hj.2.2, if_neg hj.1, if_neg hj.2.1]

/-- The head of a frame at hand in SETUP: both words in `TXQ`, or the first in `CMD0` and the second in `TXQ`. -/
def HeadAtHand (s : State) (c0 c1 : Word) (rest : List Word) : Prop :=
  (s.phase = .setupA ∧ s.txq = c0 :: c1 :: rest) ∨ (s.phase = .setupB ∧ s.cmd0 = c0 ∧ s.txq = c1 :: rest)

/-- From `s` to `u` the two words of a head are popped: the first is in `CMD0`, and SETUP goes on. -/
structure HeadPopped (s u : State) (c0 c1 : Word) (rest : List Word) : Prop where
  cmd0 : u.cmd0 = c0
  txq : u.txq = rest
  events : u.events = s.events ++ (if s.phase = .setupA then [.pop c0] else []) ++ [.pop c1]
  frame : Frame [.cmd0, .txq, .phase, .events] s u

/-- With its head at hand the command is dispatched. -/
theorem machineCycle_of_head (s : State) (c0 c1 : Word) (rest : List Word) (h : HeadAtHand s c0 c1 rest) :
    ∃ u : State, HeadPopped s u c0 c1 rest ∧
      machineCycle s = .next (startCommand (decodeHead s.cfg.id5Mode c0 c1) u) := by
  rcases h with ⟨hp, hq⟩ | ⟨hp, rfl, hq⟩
  · refine ⟨_, ⟨rfl, rfl, by simp [hp], ?_⟩, machineCycle_of_two_words s c0 c1 rest hp hq⟩
    rw [frame_iff]
    simp
  · refine ⟨(s.setTxq rest).record (.pop c1), ⟨rfl, rfl, by simp [hp], ?_⟩,
      machineCycle_of_second_word s c1 rest hp hq⟩
    rw [frame_iff]
    simp

/-- Everything a cycle of SETUP can be: the stall, the partial pop and the dispatch (40_dispatch R144). -/
theorem machineCycle_setup_cases (s : State) (h : isSetup s.phase = true) :
    (s.txq = [] ∧ machineCycle s = .next (s.record (.stall .txEmpty))) ∨
    (∃ w : Word, s.phase = .setupA ∧ s.txq = [w] ∧
      machineCycle s = .next ((loadCmd0 w [] s).record (.stall .txEmpty))) ∨
    (∃ (c0 c1 : Word) (rest : List Word) (u : State), HeadAtHand s c0 c1 rest ∧ HeadPopped s u c0 c1 rest ∧
      machineCycle s = .next (startCommand (decodeHead s.cfg.id5Mode c0 c1) u)) := by
  have hpops : popsTxq s = true := by rw [popsTxq, h]; rfl
  match hq : s.txq, (isSetup_iff s.phase).mp h with
  | [], _ => exact .inl ⟨rfl, machineCycle_of_txEmpty s hpops hq⟩
  | [w], .inl hp => exact .inr (.inl ⟨w, hp, rfl, machineCycle_of_one_word s w hp hq⟩)
  | c0 :: c1 :: rest, .inl hp =>
    obtain ⟨u, hu, hcycle⟩ := machineCycle_of_head s c0 c1 rest (.inl ⟨hp, hq⟩)
    exact .inr (.inr ⟨c0, c1, rest, u, .inl ⟨hp, hq⟩, hu, hcycle⟩)
  | c1 :: rest, .inr hp =>
    obtain ⟨u, hu, hcycle⟩ := machineCycle_of_head s s.cmd0 c1 rest (.inr ⟨hp, rfl, hq⟩)
    exact .inr (.inr ⟨s.cmd0, c1, rest, u, .inr ⟨hp, rfl, hq⟩, hu, hcycle⟩)

/-- Settles O11: the stall and the partial pop, and the dispatch of the decoded command, whose registers are the fields
of its first word. -/
theorem setupPopsAndDispatches : Obligations.SetupPopsAndDispatches := by
  refine ⟨?_, ?_, ?_⟩
  · intro s hsetup hq
    have hpops : popsTxq s = true := by rw [popsTxq, hsetup]; rfl
    refine ⟨_, machineCycle_of_txEmpty s hpops hq, rfl, ?_⟩
    rw [frame_iff]
    simp
  · intro s w hp hq
    refine ⟨_, machineCycle_of_one_word s w hp hq, rfl, rfl, rfl, by simp, ?_⟩
    rw [frame_iff]
    simp
  · intro s c0 c1 rest h
    obtain ⟨u, hpop, hcycle⟩ := machineCycle_of_head s c0 c1 rest h
    have hstart := frame_startCommand (decodeHead s.cfg.id5Mode c0 c1) u
    obtain ⟨hcmd1, hpindir, hcnt, hy, hkind, hphase, hevents⟩ :=
      startCommand_registers (decodeHead s.cfg.id5Mode c0 c1) u
    refine ⟨_, hcycle, Eq.trans (hstart .cmd0 (by simp)) hpop.cmd0, hcmd1.trans (decodeHead_cmd1 _ _ _),
      Eq.trans (hstart .txq (by simp)) hpop.txq, hpindir.trans (decodeHead_pinDirections _ _ _),
      hcnt.trans (decodeHead_transferCount _ _ _), hy.trans (decodeHead_cmdId _ _ _),
      hkind.trans (decodeHead_kind _ _ _), by rw [hkind]; exact hphase, ?_, ?_,
      hpop.frame.trans hstart (by simp) (by simp)⟩
    · rw [getLsbD_startCommand_out, hkind, show u.cfg = s.cfg from hpop.frame .cfg (by simp)]
      rfl
    · rw [hevents, hpop.events, hkind, decodeHead_cmdId, List.append_assoc, List.append_assoc, List.append_assoc]
      rfl

end Sys2Proof.Machine

/-! PROOFS. 40_dispatch R142, R152, 93 U18: the invariants of the control state, kept by every cycle and every step. -/

namespace Sys2Proof.Machine

/-! ### From a cycle of the state machine to a step -/

/-- The fields that the host's turn, the start and the end of a cycle may write. -/
def outsideRegs : List Reg := [.irq, .txq, .rxq, .cycle, .pending, .received, .trace, .events, .host, .env, .finished]

theorem frame_turn (s : State) : Frame outsideRegs s (beginCycle (hostTurn s)) := by
  have hbegin : Frame [.events] (hostTurn s) (beginCycle (hostTurn s)) := by
    rw [frame_iff]
    simp
  exact (frame_hostTurn s).trans hbegin (by decide) (by decide)

/-- A property of the state machine's own registers that every cycle keeps is kept by every step. -/
theorem step_keeps_of_machineCycle (P : State → Prop) (hregs : ∀ s t : State, Frame outsideRegs s t → P s → P t)
    (hcycle : ∀ s t : State, P s → machineCycle s = .next t → P t) (s t : State) (hs : P s) (h : step s = .next t) :
    P t := by
  obtain ⟨-, ⟨-, rfl⟩ | ⟨-, -, u, hu, rfl⟩⟩ := step_next_cases s t h
  · exact hs
  · exact hregs u _ ((frame_endCycle u).mono (by decide)) (hcycle _ u (hregs s _ (frame_turn s) hs) hu)

/-! ### Legal control states (40_dispatch R151, 93 U18) -/

/-- A phase of the kind `k`, with `TMR` positive in a waiting phase. -/
def LegalAt (k : Kind) (s : State) : Prop :=
  phaseBelongs k s.phase = true ∧ (isWaiting s.phase = true → 1 ≤ s.tmr)

theorem legalAt_goto (k : Kind) (p : Phase) (s : State) (hp : phaseBelongs k p = true) (hw : isWaiting p = false) :
    LegalAt k (s.goto p) :=
  ⟨hp, fun h => absurd h (by simp [hw])⟩

theorem legalAt_loopBack (k : Kind) (first exit : Phase) (s : State) (hf : phaseBelongs k first = true)
    (hfw : isWaiting first = false) (he : phaseBelongs k exit = true) (hew : isWaiting exit = false) :
    LegalAt k (loopBack first exit s) := by
  rcases loopBack_cases first exit s with ⟨-, h⟩ | ⟨-, h⟩ <;> rw [h]
  · exact legalAt_goto k exit s he hew
  · exact legalAt_goto k first _ hf hfw

/-- A timed phase pair of at least one cycle enters its waiting phase with a positive `TMR` only. -/
theorem legalAt_startTimed (k : Kind) (n : Nat) (wait : Phase) (next : State → State) (s : State) (hn : 1 ≤ n)
    (hw : phaseBelongs k wait = true) (hnext : ∀ u : State, LegalAt k (next u)) :
    LegalAt k (startTimed n wait next s) := by
  rcases startTimed_cases n wait next s with ⟨-, h⟩ | ⟨hne, h⟩ <;> rw [h]
  · exact hnext _
  · refine ⟨hw, fun _ => ?_⟩
    rw [State.goto_tmr, State.setTmr_tmr]
    omega

theorem legalAt_waitTimed (k : Kind) (wait : Phase) (next : State → State) (s : State)
    (hw : phaseBelongs k wait = true) (hnext : ∀ u : State, LegalAt k (next u)) :
    LegalAt k (waitTimed wait next s) := by
  rcases waitTimed_cases wait next s with ⟨-, h⟩ | ⟨hmore, h⟩ <;> rw [h]
  · exact hnext _
  · refine ⟨hw, fun _ => ?_⟩
    rw [State.goto_tmr, State.setTmr_tmr]
    omega

theorem legalAt_afterPulse (k : Kind) (s : State) (hk : isWriteKind k = true) : LegalAt k (afterPulse k s) := by
  cases k with
  | cmdLatch => exact legalAt_goto _ .clExit s rfl rfl
  | addrLatch => exact legalAt_loopBack _ .wPlace .alExit s rfl rfl rfl rfl
  | dataInput => exact legalAt_loopBack _ .wPlace .setupA s rfl rfl rfl rfl
  | bitbang | dataOutput | signal | waitRbb => cases hk

/-- The phases of a write pulse belong to the write kinds. -/
theorem isWriteKind_of_belongs (k : Kind) (p : Phase) (hp : p = .wPlace ∨ p = .wLow ∨ p = .wRise ∨ p = .wHigh)
    (h : phaseBelongs k p = true) : isWriteKind k = true := by
  revert h
  rcases hp with rfl | rfl | rfl | rfl <;> cases k <;> decide

theorem legalAt_placePayload (k : Kind) (p : Word) (s : State) (hn : 1 ≤ s.cfg.tSetup) (hk : isWriteKind k = true) :
    LegalAt k (placePayload p s) := by
  obtain ⟨-, hlow, hrise, -⟩ := phaseBelongs_of_isWriteKind k hk
  exact legalAt_startTimed k _ .wLow _ _ hn hlow fun u => legalAt_goto k .wRise u hrise rfl

theorem legalAt_placeCycle (k : Kind) (s : State) (hp : s.phase = .wPlace) (hn : 1 ≤ s.cfg.tSetup)
    (hk : isWriteKind k = true) : LegalAt k (placeCycle k s) := by
  unfold placeCycle
  split
  · exact legalAt_placePayload k _ s hn hk
  · rcases placeFromTxq_cases s with ⟨-, h⟩ | ⟨p, rest, -, h⟩ <;> rw [h]
    · exact ⟨by rw [State.record_phase, hp]; exact (phaseBelongs_of_isWriteKind k hk).1, by simp [hp, isWaiting]⟩
    · exact legalAt_placePayload k p _ hn hk

theorem legalAt_readSample (s : State) (hp : s.phase = .rSample) (hn : 1 ≤ s.cfg.tHold) :
    LegalAt .dataOutput (readSample s) := by
  rcases readSample_cases s with ⟨-, h⟩ | ⟨-, h⟩ <;> rw [h]
  · exact ⟨by rw [State.record_phase, hp]; rfl, by simp [hp, isWaiting]⟩
  · exact legalAt_startTimed _ _ .rHigh _ _ hn rfl fun u => legalAt_loopBack _ .rFall .setupA u rfl rfl rfl rfl

theorem valid_iff (c : Cfg) :
    c.valid = true ↔ 1 ≤ c.tSetup ∧ 1 ≤ c.tHold ∧ 1 ≤ c.tRsettle ∧ 1 ≤ c.txDepth ∧ 1 ≤ c.rxDepth ∧ 1 ≤ c.maxCycles := by
  simp [Cfg.valid, and_assoc]

/-- From a phase of its kind a command goes on to a phase of its kind. -/
theorem legalAt_phaseCycle (k : Kind) (p : Phase) (s : State) (hp : s.phase = p) (hv : s.cfg.valid = true)
    (hrun : isSetup p = false) (hbelongs : phaseBelongs k p = true) : LegalAt k (phaseCycle k p s) := by
  obtain ⟨hsetup, hhold, hsettle, -⟩ := (valid_iff s.cfg).mp hv
  cases p with
  | setupA | setupB => cases hrun
  | bbEmit | clExit | alExit | signal => exact legalAt_goto k .setupA _ rfl rfl
  | wPlace => exact legalAt_placeCycle k s hp hsetup (isWriteKind_of_belongs k _ (by simp) hbelongs)
  | wLow =>
    exact legalAt_waitTimed k .wLow _ s hbelongs fun u => legalAt_goto k .wRise u hbelongs rfl
  | wRise =>
    exact legalAt_startTimed k _ .wHigh _ _ hhold hbelongs
      fun u => legalAt_afterPulse k u (isWriteKind_of_belongs k .wRise (by simp) hbelongs)
  | wHigh =>
    exact legalAt_waitTimed k .wHigh _ s hbelongs
      fun u => legalAt_afterPulse k u (isWriteKind_of_belongs k .wHigh (by simp) hbelongs)
  | rFall =>
    exact legalAt_startTimed k _ .rLow _ _ hsettle hbelongs fun u => legalAt_goto k .rSample u hbelongs rfl
  | rLow => exact legalAt_waitTimed k .rLow _ s hbelongs fun u => legalAt_goto k .rSample u hbelongs rfl
  | rSample =>
    obtain rfl : k = .dataOutput := of_decide_eq_true hbelongs
    exact legalAt_readSample s hp hhold
  | rHigh =>
    exact legalAt_waitTimed k .rHigh _ s hbelongs
      fun u => legalAt_loopBack k .rFall .setupA u hbelongs rfl rfl rfl
  | waitRbb =>
    change LegalAt k (pollReady s)
    rcases pollReady_cases s with ⟨-, h⟩ | ⟨-, h⟩ <;> rw [h]
    · exact legalAt_goto k .setupA _ rfl rfl
    · exact legalAt_goto k .waitRbb s hbelongs rfl

theorem legalAt_of_isSetup (k : Kind) (s : State) (h : isSetup s.phase = true) : LegalAt k s := by
  rcases (isSetup_iff s.phase).mp h with hp | hp <;> simp [LegalAt, hp, phaseBelongs, isWaiting]

/-- A dispatched command starts in a phase of its kind that is no waiting phase. -/
theorem legalAt_firstPhase (k : Kind) (s : State) (h : s.phase = firstPhase k) : LegalAt k s := by
  rw [LegalAt, h]
  cases k <;> simp [firstPhase, phaseBelongs, isWaiting]

/-- Settles O24: SETUP stalls or starts a command in its first phase, and the other phases have a cycle that stays among
those of the kind. -/
theorem machineCycleNeverStops : Obligations.MachineCycleNeverStops := by
  rintro s ⟨hv, hbelongs, htmr⟩
  by_cases hsetup : isSetup s.phase = true
  · rcases machineCycle_setup_cases s hsetup with ⟨-, h⟩ | ⟨w, -, -, h⟩ | ⟨c0, c1, rest, u, -, hpop, h⟩
    · exact ⟨_, h, hv, legalAt_of_isSetup _ _ hsetup⟩
    · exact ⟨_, h, hv, legalAt_of_isSetup _ _ rfl⟩
    · obtain ⟨-, -, -, -, hkind, hphase, -⟩ := startCommand_registers (decodeHead s.cfg.id5Mode c0 c1) u
      refine ⟨_, h, ?_, legalAt_firstPhase _ _ (by rw [hphase, hkind])⟩
      rw [show (startCommand _ u).cfg = u.cfg from frame_startCommand _ u .cfg (by simp),
        show u.cfg = s.cfg from hpop.frame .cfg (by simp), hv]
  · have hrun := Bool.eq_false_of_not_eq_true hsetup
    have hcycle : machineCycle s = .next (phaseCycle s.kind s.phase s) := by
      rw [machineCycle_running s hrun, phaseOutcome, if_pos hbelongs]
    have hframe := machineCycle_runFrame s _ hrun hcycle
    refine ⟨_, hcycle, ?_, ?_⟩
    · rw [show (phaseCycle _ _ s).cfg = s.cfg from hframe .cfg (by decide), hv]
    · rw [show (phaseCycle _ _ s).kind = s.kind from hframe .kind (by decide)]
      exact legalAt_phaseCycle s.kind s.phase s rfl hv hrun hbelongs

theorem legalControl_of_frame (s t : State) (h : Frame outsideRegs s t) (hs : LegalControl s) : LegalControl t := by
  obtain ⟨hv, hbelongs, htmr⟩ := hs
  have hcfg : t.cfg = s.cfg := h .cfg (by decide)
  have hphase : t.phase = s.phase := h .phase (by decide)
  have hkind : t.kind = s.kind := h .kind (by decide)
  have ht : t.tmr = s.tmr := h .tmr (by decide)
  exact ⟨by rw [hcfg, hv], by rw [hkind, hphase, hbelongs], by rw [hphase, ht]; exact htmr⟩

/-- Settles O25: neither the host's turn nor the end of the cycle writes a register of the control state. -/
theorem stepKeepsLegalControl : Obligations.StepKeepsLegalControl := by
  intro s hs hc
  by_cases hf : s.finished = true
  · exact ⟨s, by simp [step, hs.1, hf], hs⟩
  · obtain ⟨u, hu, hlegal⟩ := machineCycleNeverStops _ (legalControl_of_frame s _ (frame_turn s) hs)
    exact ⟨_, step_of_machineCycle s u ⟨hs.1, Bool.eq_false_of_not_eq_true hf, hc⟩ hu,
      legalControl_of_frame u _ ((frame_endCycle u).mono (by decide)) hlegal⟩

/-! ### The queues' depths (10_state R37) -/

theorem frame_startTimed (n : Nat) (wait : Phase) (next : State → State) (s : State)
    (hnext : ∀ u : State, Frame [.phase, .cnt] u (next u)) :
    Frame [.tmr, .phase, .cnt] s (startTimed n wait next s) :=
  (startTimed_spec n wait next s hnext).1

theorem frame_waitTimed (wait : Phase) (next : State → State) (s : State)
    (hnext : ∀ u : State, Frame [.phase, .cnt] u (next u)) :
    Frame [.tmr, .phase, .cnt] s (waitTimed wait next s) := by
  rcases waitTimed_cases wait next s with ⟨-, h⟩ | ⟨-, h⟩ <;> rw [h]
  · exact (frame_setTmr 0 s).trans (hnext _) (by simp) (by simp)
  · exact (frame_setTmr _ s).trans (frame_goto _ _) (by simp) (by simp)

theorem frame_placePayload (p : Word) (s : State) : Frame [.out, .tmr, .phase, .events] s (placePayload p s) := by
  rw [placePayload, startTimed_goto, frame_iff]
  simp

theorem frame_placeCycle (k : Kind) (s : State) : Frame [.out, .tmr, .phase, .txq, .events] s (placeCycle k s) := by
  unfold placeCycle
  split
  · exact (frame_placePayload _ s).mono (by simp)
  · rcases placeFromTxq_cases s with ⟨-, h⟩ | ⟨p, rest, -, h⟩ <;> rw [h]
    · rw [frame_iff]
      simp
    · have hpop : Frame [.txq, .events] s ((s.setTxq rest).record (.pop p)) := by
        rw [frame_iff]
        simp
      exact hpop.trans (frame_placePayload p _) (by simp) (by simp)

/-- What a phase after SETUP writes, but for `R_SAMPLE`'s push and `SIGNAL`'s flag. -/
theorem frame_phaseCycle (k : Kind) (p : Phase) (s : State) (hsample : p ≠ .rSample) (hsignal : p ≠ .signal) :
    Frame [.out, .tmr, .phase, .cnt, .txq, .events] s (phaseCycle k p s) := by
  have hdata (o : Pins) (e : Event) : Frame [.out, .events] s ((s.setOut o).record e) := by
    rw [frame_iff]
    simp
  have hout (o : Pins) : Frame [.out] s (s.setOut o) := by
    rw [frame_iff]
    simp
  cases p with
  | setupA | setupB => exact Frame.refl _ s
  | bbEmit => exact (hdata _ _).trans (frame_goto _ _) (by simp) (by simp)
  | wPlace => exact (frame_placeCycle k s).mono (by simp)
  | wLow | rLow => exact (frame_waitTimed _ _ s fun u => (frame_goto _ u).mono (by simp)).mono (by simp)
  | wRise => exact (hdata _ _).trans (frame_startTimed _ _ _ _ (frame_afterPulse k)) (by simp) (by simp)
  | wHigh => exact (frame_waitTimed _ _ s (frame_afterPulse k)).mono (by simp)
  | clExit | alExit => exact (hout _).trans (frame_goto _ _) (by simp) (by simp)
  | rFall =>
    exact (hout _).trans (frame_startTimed _ _ _ _ fun u => (frame_goto _ u).mono (by simp)) (by simp) (by simp)
  | rSample => exact absurd rfl hsample
  | rHigh => exact (frame_waitTimed _ _ s fun u => frame_loopBack _ _ u).mono (by simp)
  | signal => exact absurd rfl hsignal
  | waitRbb =>
    change Frame _ s (pollReady s)
    rcases pollReady_cases s with ⟨-, h⟩ | ⟨-, h⟩ <;> rw [h, frame_iff] <;> simp

/-- Only `R_SAMPLE` writes `RXQ`, and it pushes one word where there is room. -/
theorem rxq_machineCycle (s t : State) (h : machineCycle s = .next t) :
    t.rxq = s.rxq ∨ (s.rxq.length < s.cfg.rxDepth ∧ t.rxq = s.rxq ++ [d8Word s.sampledByte]) := by
  by_cases hsetup : isSetup s.phase = true
  · left
    rcases machineCycle_setup_cases s hsetup with ⟨-, hc⟩ | ⟨w, -, -, hc⟩ | ⟨c0, c1, rest, u, -, hpop, hc⟩ <;>
      rw [h] at hc <;> cases hc
    · rfl
    · rfl
    · exact Eq.trans (frame_startCommand _ u .rxq (by simp)) (hpop.frame .rxq (by simp))
  · rw [machineCycle_running s (Bool.eq_false_of_not_eq_true hsetup), phaseOutcome] at h
    split at h <;> cases h
    by_cases hsample : s.phase = .rSample
    · rw [hsample]
      change (readSample s).rxq = _ ∨ _ ∧ (readSample s).rxq = _
      rcases readSample_cases s with ⟨-, hr⟩ | ⟨hroom, hr⟩ <;> rw [hr]
      · exact .inl rfl
      · exact .inr ⟨hroom, frame_startTimed _ _ _ _ (fun u => frame_loopBack _ _ u) .rxq (by simp)⟩
    · left
      by_cases hsignal : s.phase = .signal
      · rw [hsignal]
        rfl
      · exact frame_phaseCycle s.kind s.phase s hsample hsignal .rxq (by simp)

theorem queuesBounded_machineCycle (s t : State) (hs : QueuesBounded s) (h : machineCycle s = .next t) :
    QueuesBounded t := by
  obtain ⟨htx, hrx⟩ := hs
  obtain ⟨es, hes, -⟩ := machineCycle_queueLog s t h
  have hcfg := (outsideKept_machineCycle s t h).cfg
  have htxq := congrArg List.length hes.txq
  rw [List.length_append] at htxq
  rw [QueuesBounded, hcfg]
  refine ⟨by omega, ?_⟩
  rcases rxq_machineCycle s t h with hr | ⟨hroom, hr⟩ <;> rw [hr]
  · exact hrx
  · simpa using hroom

theorem queuesBounded_step (s t : State) (hs : QueuesBounded s) (h : step s = .next t) : QueuesBounded t := by
  obtain ⟨-, ⟨-, rfl⟩ | ⟨-, -, u, hu, rfl⟩⟩ := step_next_cases s t h
  · exact hs
  · obtain ⟨htx, hrx⟩ := hs
    obtain ⟨hturnTx, hturnRx⟩ := hostTurn_lengths s
    have hcfg := (registersKept_hostTurn s).cfg
    have hturn : QueuesBounded (beginCycle (hostTurn s)) := by
      rw [QueuesBounded, beginCycle_cfg, beginCycle_txq, beginCycle_rxq, hcfg]
      omega
    obtain ⟨hutx, hurx⟩ := queuesBounded_machineCycle _ u hturn hu
    have hend := (hostStreams_endCycle u).rxq
    obtain ⟨r, -, hr⟩ := hend
    have hlen := congrArg List.length hr
    rw [List.length_append] at hlen
    rw [QueuesBounded, endCycle_cfg, endCycle_txq]
    omega

/-- Settles O26: a step keeps the bounds, and reset has both queues empty. -/
theorem queueOccupancyStaysBounded : Obligations.QueueOccupancyStaysBounded :=
  ⟨queuesBounded_step, fun _ _ _ _ n _ _ h =>
    run_invariant QueuesBounded queuesBounded_step n _ _ ⟨Nat.zero_le _, Nat.zero_le _⟩ h⟩

/-! ### The pins and the phase (40_dispatch R152, R155) -/

/-- The phases after the cycle that raises `web`: the hold, or the successor of the pulse (41_pin_commands R180). -/
def afterRise (k : Kind) : List Phase :=
  match k with
  | .addrLatch => [.wHigh, .wPlace, .alExit]
  | .dataInput => [.wHigh, .wPlace, .setupA]
  | .bitbang | .cmdLatch | .dataOutput | .signal | .waitRbb => [.wHigh, .clExit]

/-- Where a cycle of the phase `p` after SETUP goes, and what it writes to `OUT`. -/
def PhaseMove (k : Kind) (p : Phase) (s t : State) : Prop :=
  match p with
  | .setupA | .setupB => False
  | .bbEmit => t.phase = .setupA ∧ t.out = setPayload s.out s.cmd1
  | .wPlace =>
    (t.phase = .wPlace ∧ t.out = s.out) ∨
      ((t.phase = .wLow ∨ t.phase = .wRise) ∧ ∃ w : Word, t.out = setPayload (setBit s.out pinWeb false) w)
  | .wLow => (t.phase = .wLow ∨ t.phase = .wRise) ∧ t.out = s.out
  | .wRise => t.phase ∈ afterRise k ∧ t.out = setBit s.out pinWeb true
  | .wHigh => t.phase ∈ afterRise k ∧ t.out = s.out
  | .clExit => t.phase = .setupA ∧ t.out = setBit s.out pinCle false
  | .alExit => t.phase = .setupA ∧ t.out = setBit s.out pinAle false
  | .rFall => (t.phase = .rLow ∨ t.phase = .rSample) ∧ t.out = setBit s.out pinReb false
  | .rLow => (t.phase = .rLow ∨ t.phase = .rSample) ∧ t.out = s.out
  | .rSample =>
    (t.phase = .rSample ∧ t.out = s.out) ∨
      (t.phase ∈ [Phase.rHigh, .rFall, .setupA] ∧ t.out = setBit s.out pinReb true)
  | .rHigh => t.phase ∈ [Phase.rHigh, .rFall, .setupA] ∧ t.out = s.out
  | .signal => t.phase = .setupA ∧ t.out = s.out
  | .waitRbb => (t.phase = .setupA ∨ t.phase = .waitRbb) ∧ t.out = s.out

theorem phase_loopBack (first exit : Phase) (s : State) :
    (loopBack first exit s).phase = first ∨ (loopBack first exit s).phase = exit := by
  rcases loopBack_cases first exit s with ⟨-, h⟩ | ⟨-, h⟩ <;> rw [h]
  · exact .inr rfl
  · exact .inl rfl

theorem phase_afterPulse (k : Kind) (s : State) : (afterPulse k s).phase ∈ afterRise k := by
  cases k with
  | addrLatch => rcases phase_loopBack .wPlace .alExit s with h | h <;> simp [afterPulse, afterRise, h]
  | dataInput => rcases phase_loopBack .wPlace .setupA s with h | h <;> simp [afterPulse, afterRise, h]
  | _ => simp [afterPulse, afterRise]

theorem wHigh_mem_afterRise (k : Kind) : .wHigh ∈ afterRise k := by
  cases k <;> decide

/-- A timed phase pair ends in its waiting phase or in a phase of its successor. -/
theorem phase_startTimed (q : Phase → Prop) (n : Nat) (wait : Phase) (next : State → State) (s : State) (hw : q wait)
    (hnext : ∀ u : State, q (next u).phase) : q (startTimed n wait next s).phase := by
  rcases startTimed_cases n wait next s with ⟨-, h⟩ | ⟨-, h⟩ <;> rw [h]
  · exact hnext _
  · exact hw

theorem phase_waitTimed (q : Phase → Prop) (wait : Phase) (next : State → State) (s : State) (hw : q wait)
    (hnext : ∀ u : State, q (next u).phase) : q (waitTimed wait next s).phase := by
  rcases waitTimed_cases wait next s with ⟨-, h⟩ | ⟨-, h⟩ <;> rw [h]
  · exact hnext _
  · exact hw

theorem phase_afterRead (s : State) : (afterRead s).phase ∈ [Phase.rHigh, .rFall, .setupA] := by
  rcases phase_loopBack .rFall .setupA s with h | h <;> simp [afterRead, h]

theorem placePayload_move (p : Word) (s : State) :
    ((placePayload p s).phase = .wLow ∨ (placePayload p s).phase = .wRise) ∧
      (placePayload p s).out = setPayload (setBit s.out pinWeb false) p := by
  refine ⟨phase_startTimed (fun q => q = .wLow ∨ q = .wRise) _ _ _ _ (.inl rfl) fun _ => .inr rfl, ?_⟩
  rw [placePayload, startTimed_goto]
  rfl

/-- Every phase's cycle makes the phase's move. -/
theorem phaseMove_phaseCycle (k : Kind) (p : Phase) (s : State) (hp : s.phase = p) (hrun : isSetup p = false) :
    PhaseMove k p s (phaseCycle k p s) := by
  cases p with
  | setupA | setupB => cases hrun
  | bbEmit | clExit | alExit | signal => exact ⟨rfl, rfl⟩
  | wPlace =>
    change (_ ∧ _) ∨ _
    rw [phaseCycle, placeCycle]
    split
    · obtain ⟨hphase, hout⟩ := placePayload_move s.cmd1 s
      exact .inr ⟨hphase, _, hout⟩
    · rcases placeFromTxq_cases s with ⟨-, h⟩ | ⟨w, rest, -, h⟩ <;> rw [h]
      · exact .inl ⟨hp, rfl⟩
      · obtain ⟨hphase, hout⟩ := placePayload_move w ((s.setTxq rest).record (.pop w))
        exact .inr ⟨hphase, _, hout⟩
  | wLow =>
    exact ⟨phase_waitTimed (fun q => q = .wLow ∨ q = .wRise) _ _ s (.inl rfl) fun _ => .inr rfl,
      frame_waitTimed _ _ s (fun u => (frame_goto _ u).mono (by simp)) .out (by simp)⟩
  | wRise =>
    exact ⟨phase_startTimed (· ∈ afterRise k) _ _ _ _ (wHigh_mem_afterRise k) (phase_afterPulse k),
      frame_startTimed _ _ _ _ (frame_afterPulse k) .out (by simp)⟩
  | wHigh =>
    exact ⟨phase_waitTimed (· ∈ afterRise k) _ _ s (wHigh_mem_afterRise k) (phase_afterPulse k),
      frame_waitTimed _ _ s (frame_afterPulse k) .out (by simp)⟩
  | rFall =>
    exact ⟨phase_startTimed (fun q => q = .rLow ∨ q = .rSample) _ _ _ _ (.inl rfl) fun _ => .inr rfl,
      frame_startTimed _ _ _ _ (fun u => (frame_goto _ u).mono (by simp)) .out (by simp)⟩
  | rLow =>
    exact ⟨phase_waitTimed (fun q => q = .rLow ∨ q = .rSample) _ _ s (.inl rfl) fun _ => .inr rfl,
      frame_waitTimed _ _ s (fun u => (frame_goto _ u).mono (by simp)) .out (by simp)⟩
  | rSample =>
    change (_ ∧ _) ∨ _
    rw [phaseCycle]
    rcases readSample_cases s with ⟨-, h⟩ | ⟨-, h⟩ <;> rw [h]
    · exact .inl ⟨hp, rfl⟩
    · exact .inr ⟨phase_startTimed (· ∈ [Phase.rHigh, .rFall, .setupA]) _ _ _ _ (by simp) phase_afterRead,
        frame_startTimed _ _ _ _ (fun u => frame_loopBack _ _ u) .out (by simp)⟩
  | rHigh =>
    exact ⟨phase_waitTimed (· ∈ [Phase.rHigh, .rFall, .setupA]) _ _ s (by simp) phase_afterRead,
      frame_waitTimed _ _ s (fun u => frame_loopBack _ _ u) .out (by simp)⟩
  | waitRbb =>
    change (_ ∨ _) ∧ _
    rw [phaseCycle]
    rcases pollReady_cases s with ⟨-, h⟩ | ⟨-, h⟩ <;> rw [h]
    · exact ⟨.inl rfl, rfl⟩
    · exact ⟨.inr rfl, rfl⟩

/-- Everything a cycle after SETUP can be. -/
theorem machineCycle_running_cases (s t : State) (hrun : isSetup s.phase = false) (h : machineCycle s = .next t) :
    phaseBelongs s.kind s.phase = true ∧ t = phaseCycle s.kind s.phase s ∧ RunFrame s t ∧
      PhaseMove s.kind s.phase s t := by
  have hframe := machineCycle_runFrame s t hrun h
  rw [machineCycle_running s hrun, phaseOutcome] at h
  split at h <;> cases h
  next hbelongs => exact ⟨hbelongs, rfl, hframe, phaseMove_phaseCycle _ _ s rfl hrun⟩

/-- `web`, `reb`, `cle` and `ale` among the latches. -/
def strobes (o : Pins) : Bool × Bool × Bool × Bool :=
  (o.getLsbD 13, o.getLsbD 14, o.getLsbD 10, o.getLsbD 11)

/-- What the phase `p` of a command of kind `k` says of them (40_dispatch R152, R155). -/
def phaseStrobes (k : Kind) (p : Phase) : Bool × Bool × Bool × Bool :=
  (!(decide (p = .wLow) || decide (p = .wRise)), !(decide (p = .rLow) || decide (p = .rSample)),
    decide (k = .cmdLatch) && !isSetup p, decide (k = .addrLatch) && !isSetup p)

theorem pinsFollowPhase_iff (s : State) : PinsFollowPhase s ↔ strobes s.out = phaseStrobes s.kind s.phase := by
  simp only [PinsFollowPhase, strobes, phaseStrobes, Prod.mk.injEq]

theorem strobes_setPayload (o : Pins) (w : Word) : strobes (setPayload o w) = strobes o := by
  simp [strobes, getElem_setPayload]

theorem strobes_setWeb (o : Pins) (b : Bool) : strobes (setBit o pinWeb b) = (b, (strobes o).2) := by
  simp [strobes, getElem_setBit, pinWeb]

theorem strobes_setReb (o : Pins) (b : Bool) :
    strobes (setBit o pinReb b) = ((strobes o).1, b, (strobes o).2.2) := by
  simp [strobes, getElem_setBit, pinReb]

theorem strobes_setCle (o : Pins) (b : Bool) :
    strobes (setBit o pinCle b) = ((strobes o).1, (strobes o).2.1, b, (strobes o).2.2.2) := by
  simp [strobes, getElem_setBit, pinCle]

theorem strobes_setAle (o : Pins) (b : Bool) :
    strobes (setBit o pinAle b) = ((strobes o).1, (strobes o).2.1, (strobes o).2.2.1, b) := by
  simp [strobes, getElem_setBit, pinAle]

/-- After the rise of `web` every strobe is as in `W_HIGH`: SETUP follows only for `data_input`, which has no latch
enable. -/
theorem phaseStrobes_afterRise (k : Kind) (q : Phase) (hk : isWriteKind k = true) (hq : q ∈ afterRise k) :
    phaseStrobes k q = phaseStrobes k .wHigh := by
  revert hk hq
  cases k <;> cases q <;> decide

theorem phaseStrobes_afterSample (q : Phase) (hq : q ∈ [Phase.rHigh, .rFall, .setupA]) :
    phaseStrobes .dataOutput q = phaseStrobes .dataOutput .rHigh := by
  revert hq
  cases q <;> decide

/-- A move keeps the strobes with the phase: a cycle that goes into or out of `W_LOW` and `W_RISE` writes `web`, one
that goes into or out of `R_LOW` and `R_SAMPLE` writes `reb`, and an exit phase lowers its latch enable
(40_dispatch R152). -/
theorem strobes_of_move (k : Kind) (p : Phase) (s t : State) (hbelongs : phaseBelongs k p = true)
    (h : PhaseMove k p s t) (hs : strobes s.out = phaseStrobes k p) : strobes t.out = phaseStrobes k t.phase := by
  cases p with
  | setupA | setupB => exact h.elim
  | bbEmit =>
    obtain ⟨hq, ho⟩ := h
    obtain rfl : k = .bitbang := of_decide_eq_true hbelongs
    rw [hq, ho, strobes_setPayload, hs]
    rfl
  | wPlace =>
    obtain ⟨hq, ho⟩ | ⟨hq | hq, w, ho⟩ := h
    · rw [hq, ho, hs]
    · rw [hq, ho, strobes_setPayload, strobes_setWeb, hs]
      rfl
    · rw [hq, ho, strobes_setPayload, strobes_setWeb, hs]
      rfl
  | wLow | rLow =>
    obtain ⟨hq | hq, ho⟩ := h
    · rw [hq, ho, hs]
    · rw [hq, ho, hs]
      rfl
  | wRise =>
    obtain ⟨hq, ho⟩ := h
    rw [phaseStrobes_afterRise k _ (isWriteKind_of_belongs k .wRise (by simp) hbelongs) hq, ho, strobes_setWeb, hs]
    rfl
  | wHigh =>
    obtain ⟨hq, ho⟩ := h
    rw [phaseStrobes_afterRise k _ (isWriteKind_of_belongs k .wHigh (by simp) hbelongs) hq, ho, hs]
  | clExit =>
    obtain ⟨hq, ho⟩ := h
    obtain rfl : k = .cmdLatch := of_decide_eq_true hbelongs
    rw [hq, ho, strobes_setCle, hs]
    rfl
  | alExit =>
    obtain ⟨hq, ho⟩ := h
    obtain rfl : k = .addrLatch := of_decide_eq_true hbelongs
    rw [hq, ho, strobes_setAle, hs]
    rfl
  | rFall =>
    obtain ⟨hq | hq, ho⟩ := h
    · rw [hq, ho, strobes_setReb, hs]
      rfl
    · rw [hq, ho, strobes_setReb, hs]
      rfl
  | rSample =>
    obtain rfl : k = .dataOutput := of_decide_eq_true hbelongs
    obtain ⟨hq, ho⟩ | ⟨hq, ho⟩ := h
    · rw [hq, ho, hs]
    · rw [phaseStrobes_afterSample _ hq, ho, strobes_setReb, hs]
      rfl
  | rHigh =>
    obtain rfl : k = .dataOutput := of_decide_eq_true hbelongs
    obtain ⟨hq, ho⟩ := h
    rw [phaseStrobes_afterSample _ hq, ho, hs]
  | signal =>
    obtain ⟨hq, ho⟩ := h
    obtain rfl : k = .signal := of_decide_eq_true hbelongs
    rw [hq, ho, hs]
    rfl
  | waitRbb =>
    obtain ⟨hq | hq, ho⟩ := h
    · obtain rfl : k = .waitRbb := of_decide_eq_true hbelongs
      rw [hq, ho, hs]
      rfl
    · rw [hq, ho, hs]

/-- In SETUP all four are at their idle levels. -/
theorem phaseStrobes_setup (k : Kind) (p : Phase) (h : isSetup p = true) :
    phaseStrobes k p = (true, true, false, false) := by
  rcases (isSetup_iff p).mp h with rfl | rfl <;> simp [phaseStrobes, isSetup]

/-- A dispatch raises exactly the latch enable of the kind. -/
theorem strobes_startCommand (i : Instr) (s : State) (hs : strobes s.out = (true, true, false, false)) :
    strobes (startCommand i s).out = phaseStrobes i.kind (firstPhase i.kind) := by
  obtain ⟨hweb, hreb, hcle, hale⟩ : s.out.getLsbD 13 = true ∧ s.out.getLsbD 14 = true ∧ s.out.getLsbD 10 = false ∧
      s.out.getLsbD 11 = false := by simpa only [strobes, Prod.mk.injEq] using hs
  have hbits : strobes (startCommand i s).out =
      (true, true, decide (i.kind = .cmdLatch), decide (i.kind = .addrLatch)) := by
    simp only [strobes, getLsbD_startCommand_out, hweb, hreb, hcle, hale]
    simp
  rw [hbits]
  cases i.kind <;> rfl

theorem pinsFollowPhase_machineCycle (s t : State) (hs : PinsFollowPhase s) (h : machineCycle s = .next t) :
    PinsFollowPhase t := by
  rw [pinsFollowPhase_iff] at hs ⊢
  by_cases hsetup : isSetup s.phase = true
  · rw [phaseStrobes_setup _ _ hsetup] at hs
    rcases machineCycle_setup_cases s hsetup with ⟨-, hc⟩ | ⟨w, -, -, hc⟩ | ⟨c0, c1, rest, u, -, hpop, hc⟩ <;>
      rw [h] at hc <;> cases hc
    · exact hs.trans (phaseStrobes_setup _ _ hsetup).symm
    · exact hs.trans (phaseStrobes_setup _ _ rfl).symm
    · obtain ⟨-, -, -, -, hkind, hphase, -⟩ := startCommand_registers (decodeHead s.cfg.id5Mode c0 c1) u
      rw [hkind, hphase]
      exact strobes_startCommand _ u (by rwa [show u.out = s.out from hpop.frame .out (by simp)])
  · obtain ⟨hbelongs, -, hframe, hmove⟩ := machineCycle_running_cases s t (Bool.eq_false_of_not_eq_true hsetup) h
    rw [show t.kind = s.kind from hframe .kind (by decide)]
    exact strobes_of_move s.kind s.phase s t hbelongs hmove hs

theorem pinsFollowPhase_of_frame (s t : State) (h : Frame outsideRegs s t) (hs : PinsFollowPhase s) :
    PinsFollowPhase t := by
  rw [pinsFollowPhase_iff] at hs ⊢
  rwa [show t.out = s.out from h .out (by decide), show t.kind = s.kind from h .kind (by decide),
    show t.phase = s.phase from h .phase (by decide)]

/-- Settles O27: every move keeps the strobes with the phase, and the levels of SETUP are the idle ones. -/
theorem controlPinsFollowPhase : Obligations.ControlPinsFollowPhase := by
  intro s t hs h
  have ht := step_keeps_of_machineCycle PinsFollowPhase pinsFollowPhase_of_frame pinsFollowPhase_machineCycle s t hs h
  refine ⟨ht, fun hsetup => ?_⟩
  rw [pinsFollowPhase_iff, phaseStrobes_setup _ _ hsetup] at ht
  obtain ⟨hweb, hreb, hcle, hale⟩ : t.out.getLsbD 13 = true ∧ t.out.getLsbD 14 = true ∧ t.out.getLsbD 10 = false ∧
      t.out.getLsbD 11 = false := by simpa only [strobes, Prod.mk.injEq] using ht
  exact ⟨hreb, hweb, hale, hcle⟩

/-! ### The running command (40_dispatch R145, R148; 20_memory R78) -/

/-- The ids of a kind (30_encoding R103, read from the kind's side). -/
def kindHasId (m : Id5Mode) (id : BitVec 4) : Kind → Bool
  | .bitbang => decide (id = 0)
  | .cmdLatch => decide (id = 1)
  | .addrLatch => decide (id = 2)
  | .dataOutput => decide (id = 3)
  | .dataInput => decide (id = 4)
  | .signal => decide (id = 5 ∧ m = .signal)
  | .waitRbb => decide ((id = 5 ∧ m = .waitRbb) ∨ 6 ≤ id.toNat)

theorem kindHasId_classify (m : Id5Mode) (id : BitVec 4) : kindHasId m id (classify m id) = true := by
  cases m <;> revert id <;> decide

theorem append_low_of_six_or_seven (id : BitVec 4) (h : 6 ≤ id.toNat) (hbit : id.getLsbD 3 = false) :
    0b011#3 ++ id.extractLsb' 0 1 = id := by
  revert id
  decide

theorem eight_le_of_getLsbD (id : BitVec 4) (hbit : id.getLsbD 3 = true) : 8 ≤ id.toNat := by
  revert id
  decide

theorem extractLsb'_one_eq_cmdIdField (w : Word) : w.extractLsb' 28 1 = (cmdIdField w).extractLsb' 0 1 := by
  apply BitVec.eq_of_getLsbD_eq
  intro j hj
  simp [cmdIdField, hj, show j < 4 by omega]

/-- The command in flight holds both words whole, when `KIND` is the class of the first word's id. -/
theorem inFlight_fields (m : Id5Mode) (s : State) (hk : s.kind = classify m (cmdIdField s.cmd0)) :
    s.inFlight.cmdId = cmdIdField s.cmd0 ∧ s.inFlight.transferCount = transferCountField s.cmd0 ∧
    s.inFlight.pinDirections = pinDirectionsField s.cmd0 ∧ s.inFlight.cmd1 = s.cmd1 ∧
    s.inFlight.wellFormed m = true := by
  have hid := kindHasId_classify m (cmdIdField s.cmd0)
  rw [← hk] at hid
  unfold State.inFlight
  cases hkind : s.kind with
  | bitbang | cmdLatch | addrLatch | dataOutput | dataInput =>
    rw [hkind] at hid
    exact ⟨(of_decide_eq_true hid).symm, rfl, rfl, rfl, rfl⟩
  | signal =>
    rw [hkind] at hid
    obtain ⟨h5, rfl⟩ := of_decide_eq_true hid
    exact ⟨h5.symm, rfl, rfl, rfl, rfl⟩
  | waitRbb =>
    rw [hkind] at hid
    replace hid := of_decide_eq_true hid
    simp only
    split
    · next h5 =>
      obtain ⟨-, rfl⟩ | h6 := hid
      · exact ⟨h5.symm, rfl, rfl, rfl, rfl⟩
      · simp [h5] at h6
    · next h5 =>
      split
      · next hbit =>
        refine ⟨?_, rfl, rfl, rfl, rfl⟩
        rw [Instr.cmdId, extractLsb'_eq_cmdIdField]
        exact append_low_of_eight_le _ (eight_le_of_getLsbD _ hbit)
      · next hbit =>
        refine ⟨?_, rfl, rfl, rfl, rfl⟩
        rw [Instr.cmdId, extractLsb'_one_eq_cmdIdField]
        exact append_low_of_six_or_seven _ (hid.resolve_left fun h => h5 h.1) (Bool.eq_false_of_not_eq_true hbit)

/-- With `KIND` the class of the first word's id, the command in flight is the one the two words decode to. -/
theorem inFlight_eq_decodeHead (m : Id5Mode) (s : State) (hk : s.kind = classify m (cmdIdField s.cmd0)) :
    s.inFlight = decodeHead m s.cmd0 s.cmd1 := by
  obtain ⟨hid, htc, hpd, hcmd1, hwf⟩ := inFlight_fields m s hk
  have h := decodeHead_encode m s.inFlight hwf
  rw [hid, htc, hpd, hcmd1, cmd0Word_fields] at h
  exact h.symm

/-- What a move writes to `OUT`: the bus with or without the fall of `web`, or one of the strobes and latch enables. -/
theorem out_of_move (k : Kind) (p : Phase) (s t : State) (h : PhaseMove k p s t) :
    t.out = s.out ∨ (∃ w : Word, t.out = setPayload s.out w) ∨
    (∃ w : Word, t.out = setPayload (setBit s.out pinWeb false) w) ∨
    (∃ (j : Nat) (b : Bool), j ∈ [pinCle, pinAle, pinWeb, pinReb] ∧ t.out = setBit s.out j b) := by
  cases p with
  | setupA | setupB => exact h.elim
  | bbEmit => exact .inr (.inl ⟨_, h.2⟩)
  | wPlace =>
    obtain ⟨-, ho⟩ | ⟨-, ho⟩ := h
    · exact .inl ho
    · exact .inr (.inr (.inl ho))
  | wLow | wHigh | rLow | rHigh | signal | waitRbb => exact .inl h.2
  | wRise | clExit | alExit | rFall => exact .inr (.inr (.inr ⟨_, _, by simp, h.2⟩))
  | rSample =>
    obtain ⟨-, ho⟩ | ⟨-, ho⟩ := h
    · exact .inl ho
    · exact .inr (.inr (.inr ⟨_, _, by simp, ho⟩))

/-- No move writes `wpb` or bit 15 of `OUT` (40_dispatch R148; 10_state R27). -/
theorem getLsbD_of_move (k : Kind) (p : Phase) (s t : State) (h : PhaseMove k p s t) (i : Nat)
    (hi : i = 12 ∨ i = 15) : t.out.getLsbD i = s.out.getLsbD i := by
  have hten : ¬ i < 10 := by omega
  have hweb : i ≠ pinWeb := by
    rcases hi with rfl | rfl <;> decide
  rcases out_of_move k p s t h with ho | ⟨w, ho⟩ | ⟨w, ho⟩ | ⟨j, b, hj, ho⟩ <;> rw [ho]
  · rw [getLsbD_setPayload, if_neg hten]
  · rw [getLsbD_setPayload, if_neg hten, getLsbD_setBit _ _ _ _ (by decide), if_neg hweb]
  · have hlt : j < 16 ∧ i ≠ j := by
      simp only [List.mem_cons, List.not_mem_nil, or_false, pinCle, pinAle, pinWeb, pinReb] at hj
      omega
    rw [getLsbD_setBit _ _ _ _ hlt.1, if_neg hlt.2]

/-- A state whose registers are those its first word loads holds the command. -/
theorem commandHeld_of_registers (s : State) (hkind : s.kind = classify s.cfg.id5Mode (cmdIdField s.cmd0))
    (hy : s.y = cmdIdField s.cmd0) (hpindir : s.pindir = pinDirectionsField s.cmd0)
    (hwpb : s.out.getLsbD 12 = wpbLevel s.cfg.wpbTable s.kind) : CommandHeld s :=
  fun _ => ⟨inFlight_eq_decodeHead _ s hkind, hkind, hy, hpindir, hwpb⟩

theorem commandHeld_machineCycle (s t : State) (hs : CommandHeld s) (h : machineCycle s = .next t) : CommandHeld t := by
  by_cases hsetup : isSetup s.phase = true
  · rcases machineCycle_setup_cases s hsetup with ⟨-, hc⟩ | ⟨w, -, -, hc⟩ | ⟨c0, c1, rest, u, -, hpop, hc⟩ <;>
      rw [h] at hc <;> cases hc
    · exact fun hrun => absurd hsetup (by simpa using hrun)
    · exact fun hrun => absurd hrun (by simp [isSetup])
    · obtain ⟨-, hpindir, -, hy, hkind, -, -⟩ := startCommand_registers (decodeHead s.cfg.id5Mode c0 c1) u
      have hcfg : (startCommand (decodeHead s.cfg.id5Mode c0 c1) u).cfg = u.cfg := frame_startCommand _ u .cfg (by simp)
      have hu : u.cfg = s.cfg := hpop.frame .cfg (by simp)
      have hcmd0 : (startCommand (decodeHead s.cfg.id5Mode c0 c1) u).cmd0 = c0 :=
        Eq.trans (frame_startCommand _ u .cmd0 (by simp)) hpop.cmd0
      apply commandHeld_of_registers
      · rw [hkind, hcmd0, hcfg, hu, decodeHead_kind]
      · rw [hy, hcmd0, decodeHead_cmdId]
      · rw [hpindir, hcmd0, decodeHead_pinDirections]
      · rw [getLsbD_startCommand_out, hkind, hcfg]
        rfl
  · have hrun := Bool.eq_false_of_not_eq_true hsetup
    obtain ⟨-, hkind, hy, hpindir, hwpb⟩ := hs hrun
    obtain ⟨-, -, hframe, hmove⟩ := machineCycle_running_cases s t hrun h
    obtain ⟨fcfg, fkind, fcmd0, -, fy, fpindir, -⟩ := (runFrame_iff s t).mp hframe
    apply commandHeld_of_registers
    · rw [fkind, fcfg, fcmd0, hkind]
    · rw [fy, fcmd0, hy]
    · rw [fpindir, fcmd0, hpindir]
    · rw [getLsbD_of_move _ _ s t hmove 12 (.inl rfl), fkind, fcfg, hwpb]

theorem commandHeld_of_frame (s t : State) (h : Frame outsideRegs s t) (hs : CommandHeld s) : CommandHeld t := by
  have hcfg : t.cfg = s.cfg := h .cfg (by decide)
  have hkind : t.kind = s.kind := h .kind (by decide)
  have hcmd0 : t.cmd0 = s.cmd0 := h .cmd0 (by decide)
  have hcmd1 : t.cmd1 = s.cmd1 := h .cmd1 (by decide)
  unfold CommandHeld at hs ⊢
  rw [inFlight_of_registers hkind hcmd0 hcmd1, hcfg, hkind, hcmd0, hcmd1, show t.phase = s.phase from h .phase (by decide),
    show t.y = s.y from h .y (by decide), show t.pindir = s.pindir from h .pindir (by decide),
    show t.out = s.out from h .out (by decide)]
  exact hs

/-- Settles O28: a dispatch loads the registers from the words it pops, and no later cycle writes one of them. -/
theorem runningCommandIsTheDecodedOne : Obligations.RunningCommandIsTheDecodedOne :=
  step_keeps_of_machineCycle CommandHeld commandHeld_of_frame commandHeld_machineCycle

/-! ### The command stream under the driver (20_memory R71, R72; 46_harness R291) -/

/-- The driver's turn moves pending words to the end of `TXQ` and is still the driver's. -/
theorem hostTurn_of_driver (s : State) (hd : s.host = .driver) :
    (hostTurn s).txq ++ (hostTurn s).pending = s.txq ++ s.pending ∧ (hostTurn s).host = .driver ∧
      (hostTurn s).irq = s.irq := by
  have hpush : ∀ u : State, (servicePush u).txq = u.txq ∧ (servicePush u).pending = u.pending ∧
      (servicePush u).host = u.host ∧ (servicePush u).irq = u.irq := by
    intro u
    unfold servicePush
    split <;> exact ⟨rfl, rfl, rfl, rfl⟩
  obtain ⟨htxq, hpending, hhost, hirq⟩ := hpush (servicePop s)
  obtain ⟨p, hp, hrest, -⟩ := feed_spec (min (demand s) s.cfg.txDepth) s.txq s.pending
  simp only [hostTurn, hd]
  rw [htxq, hpending, hhost, hirq]
  refine ⟨?_, hd, rfl⟩
  simp only [servicePop]
  rw [hp, List.append_assoc, ← hrest]

/-- Settles O37: the turn moves words from `PENDING` to `TXQ`, the cycle from `TXQ` to the trace. -/
theorem commandStreamOrderKept : Obligations.CommandStreamOrderKept := by
  intro s t hd h
  obtain ⟨-, ⟨-, rfl⟩ | ⟨-, -, u, hu, rfl⟩⟩ := step_next_cases s t h
  · exact ⟨rfl, hd⟩
  · obtain ⟨hstream, hhost, -⟩ := hostTurn_of_driver s hd
    have hpop := cycle_popped _ u rfl hu
    have kept := outsideKept_machineCycle _ _ hu
    refine ⟨?_, by rw [endCycle_host, kept.host, beginCycle_host, hhost]⟩
    rw [hpop, endCycle_pending, kept.pending, beginCycle_pending, beginCycle_txq, beginCycle_trace, List.append_assoc,
      hstream, (registersKept_hostTurn s).trace, List.append_assoc]

/-! ### The trace (46_harness R282) -/

/-- A step of an unfinished run adds one snapshot, with the current cycle. -/
theorem step_adds_snapshot (s t : State) (hf : s.finished = false) (h : step s = .next t) :
    ∃ sn : Snapshot, t.trace = s.trace ++ [sn] ∧ sn.cycle = s.cycle ∧ (t.finished = false → t.cycle = s.cycle + 1) := by
  obtain ⟨u, hu, rfl⟩ := step_next_unfinished s t hf h
  have hcycle : u.cycle = s.cycle := (outsideKept_machineCycle _ _ hu).cycle.trans (registersKept_hostTurn s).cycle
  exact ⟨snapshot u, by rw [endCycle_trace, trace_of_cycle s u hu], hcycle,
    fun hfin => by rw [(endCycle_counts u hfin).1, hcycle]⟩

/-- The snapshots count their indices, and the next cycle's number is theirs. -/
def Contiguous (s : State) : Prop :=
  (∀ (i : Nat) (sn : Snapshot), s.trace[i]? = some sn → sn.cycle = i) ∧
    (s.finished = false → s.cycle = s.trace.length)

theorem contiguous_step (s t : State) (hs : Contiguous s) (h : step s = .next t) : Contiguous t := by
  obtain ⟨hidx, hlen⟩ := hs
  obtain ⟨-, ⟨-, rfl⟩ | ⟨hf, -⟩⟩ := step_next_cases s t h
  · exact ⟨hidx, hlen⟩
  · obtain ⟨sn, htrace, hcycle, hnext⟩ := step_adds_snapshot s t hf h
    have hlen := hlen hf
    refine ⟨fun i sn' hi => ?_, fun hfin => by rw [hnext hfin, htrace, List.length_append, hlen]; rfl⟩
    rw [htrace, List.getElem?_append] at hi
    split at hi
    · exact hidx i sn' hi
    · next hge =>
      obtain ⟨hi0, hsn⟩ := List.getElem?_eq_some_iff.mp hi
      simp only [List.length_singleton] at hi0
      simp only [List.getElem_singleton] at hsn
      rw [← hsn, hcycle, hlen]
      omega

/-- Settles O39: `Contiguous` holds at reset and every step keeps it. -/
theorem traceCyclesContiguous : Obligations.TraceCyclesContiguous := by
  refine ⟨fun cfg ws host env n t h => ?_, step_adds_snapshot⟩
  exact (run_invariant Contiguous contiguous_step n _ _ ⟨fun i sn hi => by simp [State.resetWith] at hi, fun _ => rfl⟩ h).1

end Sys2Proof.Machine

/-! PROOFS. 10_state R26, R30, R31, R50; 20_memory R64, R70; 40_dispatch R156; 46_harness R291: reset, the flag, the pins
and the host. -/

namespace Sys2Proof.Machine

/-! ### Reset (10_state R50) -/

/-- Settles O8. -/
theorem resetStateValues : Obligations.ResetStateValues :=
  ⟨fun _ _ => ⟨_, rfl, rfl, rfl, rfl, rfl, rfl, rfl, rfl, rfl, rfl, rfl, rfl, rfl, rfl, rfl, rfl, rfl, rfl⟩, rfl, rfl, rfl⟩

theorem legalControl_resetWith (cfg : Cfg) (ws : List Word) (hv : cfg.valid = true) :
    LegalControl (State.resetWith cfg ws) :=
  ⟨hv, legalAt_of_isSetup _ _ rfl⟩

theorem pinsFollowPhase_resetWith (cfg : Cfg) (ws : List Word)
    (h : strobes cfg.initOut = (true, true, false, false)) : PinsFollowPhase (State.resetWith cfg ws) :=
  (pinsFollowPhase_iff _).mpr (h.trans (phaseStrobes_setup _ _ rfl).symm)

/-- Settles O9: reset is in SETUP_A with empty queues and an empty trace. -/
theorem resetSatisfiesInvariants : Obligations.ResetSatisfiesInvariants := by
  refine ⟨fun cfg ws hv => ⟨legalControl_resetWith cfg ws hv, ⟨Nat.zero_le _, Nat.zero_le _⟩,
    fun hrun => absurd hrun (by simp [State.resetWith, isSetup]), rfl, fun hweb hreb hcle hale => ?_⟩,
    legalControl_resetWith _ _ (by decide), pinsFollowPhase_resetWith _ _ (by decide)⟩
  exact pinsFollowPhase_resetWith cfg ws (by rw [strobes, hweb, hreb, hcle, hale])

/-! ### The step (40_dispatch R140; 46_harness R293) -/

/-- A runnable step is the cycle between the host's turn and the end of the cycle, stops included. -/
theorem step_eq_mapNext (s : State) (hr : Runnable s) :
    step s = mapNext endCycle (machineCycle (beginCycle (hostTurn s))) := by
  obtain ⟨hv, hf, hc⟩ := hr
  rw [step, if_neg (by simp [hv]), if_neg (by simp [hf]), if_neg (by simp [hc])]
  cases machineCycle (beginCycle (hostTurn s)) <;> rfl

/-- `decodeWords` reads the two words of the head. -/
theorem decodeWords_eq_ok (m : Id5Mode) (c0 c1 : Word) (rest rest' : List Word) (i : Instr)
    (h : decodeWords m (c0 :: c1 :: rest) = .ok (i, rest')) : i = decodeHead m c0 c1 :=
  (Prod.mk.inj (Except.ok.inj h)).1.symm

/-- Settles O10: what `fetch` finds in the state the host left, in SETUP and in a running phase. -/
theorem stepRunsDecodedInstruction : Obligations.StepRunsDecodedInstruction := by
  refine ⟨?_, ?_, ?_⟩
  · rintro s u c0 c1 rest i hr rfl hp hq hdec
    rw [hq] at hdec
    have hfetch : fetch (beginCycle (hostTurn s)) = .command i
        { beginCycle (hostTurn s) with cmd0 := c0, txq := rest, phase := .setupB, events := [.pop c0, .pop c1] } := by
      rw [decodeWords_eq_ok _ c0 c1 rest rest i hdec, fetch, hp, hq]
      rfl
    rw [step_eq_mapNext s hr, machineCycle, hfetch]
  · rintro s u c1 rest i hr rfl hp hq hdec
    rw [hq] at hdec
    have hfetch : fetch (beginCycle (hostTurn s)) = .command i
        { beginCycle (hostTurn s) with txq := rest, events := [.pop c1] } := by
      rw [decodeWords_eq_ok _ _ c1 rest rest i hdec, fetch, hp, fetchCmd1, hq]
      rfl
    rw [step_eq_mapNext s hr, machineCycle, hfetch]
  · rintro s u i hr rfl hrun hheld hdec
    obtain ⟨hflight, -⟩ := hheld hrun
    have hi := decodeWords_eq_ok _ _ _ [] [] i hdec
    rw [step_eq_mapNext s hr, machineCycle_running _ hrun, exec_running i _ hrun, hi, ← hflight, kind_inFlight]

/-! ### The flag (10_state R26) -/

/-- `f` neither reads nor writes `IRQ`. -/
def IgnoresIrq (f : State → State) : Prop :=
  ∀ (s : State) (b : Bool), f { s with irq := b } = { f s with irq := b }

theorem ignoresIrq_goto (p : Phase) : IgnoresIrq (State.goto · p) := fun _ _ => rfl

theorem ignoresIrq_loopBack (first exit : Phase) : IgnoresIrq (loopBack first exit) := fun s b => by
  unfold loopBack
  split <;> rfl

theorem ignoresIrq_startTimed (t : Nat) (wait : Phase) (next : State → State) (hn : IgnoresIrq next) :
    IgnoresIrq (startTimed t wait next) := fun s b => by
  unfold startTimed
  split
  · exact hn (s.setTmr (t - 1)) b
  · rfl

theorem ignoresIrq_waitTimed (wait : Phase) (next : State → State) (hn : IgnoresIrq next) :
    IgnoresIrq (waitTimed wait next) := fun s b => by
  unfold waitTimed
  dsimp only
  split
  · exact hn (s.setTmr (s.tmr - 1)) b
  · rfl

theorem ignoresIrq_afterPulse (k : Kind) : IgnoresIrq (afterPulse k) := by
  cases k with
  | addrLatch | dataInput => exact ignoresIrq_loopBack _ _
  | _ => exact ignoresIrq_goto _

theorem ignoresIrq_placePayload (p : Word) : IgnoresIrq (placePayload p) := fun s b =>
  ignoresIrq_startTimed _ _ _ (ignoresIrq_goto .wRise)
    ((s.setOut (setPayload (setBit s.out pinWeb false) p)).record .placement) b

theorem ignoresIrq_placeCycle (k : Kind) : IgnoresIrq (placeCycle k) := fun s b => by
  unfold placeCycle
  split
  · exact ignoresIrq_placePayload s.cmd1 s b
  · unfold placeFromTxq
    dsimp only
    split
    · rfl
    · next p rest _ => exact ignoresIrq_placePayload p ((s.setTxq rest).record (.pop p)) b

theorem ignoresIrq_readSample : IgnoresIrq readSample := fun s b => by
  unfold readSample
  dsimp only
  split
  · exact ignoresIrq_startTimed s.cfg.tHold .rHigh afterRead (ignoresIrq_loopBack _ _)
      (((s.setRxq (s.rxq ++ [d8Word s.sampledByte])).record (.readSample s.sampledByte)).setOut
        (setBit s.out pinReb true)) b
  · rfl

theorem ignoresIrq_pollReady : IgnoresIrq pollReady := fun s b => by
  rw [pollReady, pollReady, show ({ s with irq := b } : State).level pinRbb = s.level pinRbb from rfl]
  split <;> rfl

/-- Every phase but `SIGNAL` leaves the flag alone. -/
theorem ignoresIrq_phaseCycle (k : Kind) (p : Phase) (hp : p ≠ .signal) : IgnoresIrq (phaseCycle k p) := fun s b => by
  cases p with
  | setupA | setupB | bbEmit | clExit | alExit => rfl
  | wPlace => exact ignoresIrq_placeCycle k s b
  | wLow | rLow => exact ignoresIrq_waitTimed _ _ (ignoresIrq_goto _) s b
  | wRise =>
    exact ignoresIrq_startTimed s.cfg.tHold .wHigh _ (ignoresIrq_afterPulse k)
      ((s.setOut (setBit s.out pinWeb true)).record (.latchPulse s.kind)) b
  | wHigh => exact ignoresIrq_waitTimed _ _ (ignoresIrq_afterPulse k) s b
  | rFall =>
    exact ignoresIrq_startTimed s.cfg.tRsettle .rLow _ (ignoresIrq_goto .rSample)
      (s.setOut (setBit s.out pinReb false)) b
  | rSample => exact ignoresIrq_readSample s b
  | rHigh => exact ignoresIrq_waitTimed _ _ (ignoresIrq_loopBack _ _) s b
  | signal => exact absurd rfl hp
  | waitRbb => exact ignoresIrq_pollReady s b

theorem ignoresIrq_startCommand (i : Instr) : IgnoresIrq (startCommand i) := fun s b => by
  unfold startCommand
  cases i.kind <;> rfl

/-- The cycles of SETUP leave the flag alone. -/
theorem machineCycle_setup_irq (s : State) (b : Bool) (h : isSetup s.phase = true) :
    machineCycle { s with irq := b } = mapNext (fun t => { t with irq := b }) (machineCycle s) := by
  rcases fetch_cases s with ⟨hp, hq, -⟩ | ⟨w, hp, hq, -⟩ | ⟨w, v, rest, hp, hq, -⟩ | ⟨hp, hq, -⟩ |
    ⟨v, rest, hp, hq, -⟩ | ⟨ha, hb, -⟩
  · have hpops : popsTxq s = true := (popsTxq_iff s).mpr (.inl hp)
    rw [machineCycle_of_txEmpty s hpops hq, machineCycle_of_txEmpty { s with irq := b } hpops hq]
    rfl
  · rw [machineCycle_of_one_word s w hp hq, machineCycle_of_one_word { s with irq := b } w hp hq]
    rfl
  · rw [machineCycle_of_two_words s w v rest hp hq, machineCycle_of_two_words { s with irq := b } w v rest hp hq]
    exact congrArg _ (ignoresIrq_startCommand _ (((loadCmd0 w (v :: rest) s).setTxq rest).record (.pop v)) b)
  · have hpops : popsTxq s = true := (popsTxq_iff s).mpr (.inr (.inl hp))
    rw [machineCycle_of_txEmpty s hpops hq, machineCycle_of_txEmpty { s with irq := b } hpops hq]
    rfl
  · rw [machineCycle_of_second_word s v rest hp hq, machineCycle_of_second_word { s with irq := b } v rest hp hq]
    exact congrArg _ (ignoresIrq_startCommand _ ((s.setTxq rest).record (.pop v)) b)
  · exact absurd ((isSetup_iff _).mp h) (by simp [ha, hb])

/-- Settles O31: SETUP and every phase but `SIGNAL` commute with a write of the flag, and `SIGNAL` overwrites it. -/
theorem stateMachineNeverReadsIrq : Obligations.StateMachineNeverReadsIrq := by
  intro s b
  by_cases hsignal : s.phase = .signal
  · have hrun : isSetup s.phase = false := by rw [hsignal]; rfl
    rw [machineCycle_running s hrun, machineCycle_running { s with irq := b } hrun]
    simp only [phaseOutcome, hsignal, decide_true, Bool.or_true]
    split <;> rfl
  · simp only [decide_eq_false hsignal, Bool.or_false]
    by_cases hsetup : isSetup s.phase = true
    · exact machineCycle_setup_irq s b hsetup
    · have hrun := Bool.eq_false_of_not_eq_true hsetup
      rw [machineCycle_running s hrun, machineCycle_running { s with irq := b } hrun]
      simp only [phaseOutcome, ignoresIrq_phaseCycle s.kind s.phase hsignal s b]
      split <;> rfl

/-- A cycle from a raised flag leaves it raised. -/
theorem machineCycle_keeps_irq (s t : State) (h : machineCycle s = .next t) (hirq : s.irq = true) : t.irq = true := by
  have hsame : ({ s with irq := true } : State) = s := by rw [← hirq]
  have hcycle := stateMachineNeverReadsIrq s true
  rw [hsame, h] at hcycle
  exact congrArg State.irq (Host.Outcome.next.inj hcycle)

theorem step_keeps_irq_of_driver (s t : State) (hd : s.host = .driver) (hirq : s.irq = true) (h : step s = .next t) :
    t.irq = true := by
  obtain ⟨-, ⟨-, rfl⟩ | ⟨-, -, u, hu, rfl⟩⟩ := step_next_cases s t h
  · exact hirq
  · rw [endCycle_irq]
    exact machineCycle_keeps_irq _ u hu ((hostTurn_of_driver s hd).2.2.trans hirq)

theorem hostAct_irq (a : HostAction) (s t : State) (ha : a ≠ .clearIrq) (h : hostAct a s = some t) : t.irq = s.irq := by
  rcases hostAct_some_cases a s t h with ⟨w, -, -, rfl⟩ | ⟨w, rest, -, -, rfl⟩ | ⟨rfl, -⟩ | ⟨-, rfl⟩
  · rfl
  · rfl
  · exact absurd rfl ha
  · rfl

/-- Settles O30: the cycle's clause follows from what O31 says of every flag. -/
theorem irqStickyUntilCleared : Obligations.IrqStickyUntilCleared := by
  refine ⟨machineCycle_keeps_irq, hostAct_irq, ?_, step_keeps_irq_of_driver, ?_, fun _ _ => rfl⟩
  · intro s t h
    cases h
    rfl
  · intro tc pd c1 s hp hirq
    obtain ⟨t, ht, hraised, hevents, -⟩ := signalRaisesFlag tc pd c1 s hp
    exact ⟨t, ht, hraised.trans hirq.symm, hevents⟩

/-! ### The pins -/

/-- Settles O32. -/
theorem environmentReadOnlyWhenSampling : Obligations.EnvironmentReadOnlyWhenSampling :=
  fun s e hsample hwait => machineCycle_env s e hwait fun hp => absurd hp hsample

/-- Settles O34: the poll sees the pin as it is at the step's start, because no host writes a pin or the environment. -/
theorem waitWakesOnPinOnly : Obligations.WaitWakesOnPinOnly := by
  intro s hr hp hk
  have hturn := frame_turn s
  have kept := registersKept_hostTurn s
  have hlevel : (beginCycle (hostTurn s)).level pinRbb = s.level 15 := by
    rw [level_eq _ _ (by decide), level_eq s _ (by decide)]
    simp only [beginCycle_pindir, beginCycle_out, kept.pindir, kept.out, State.ext, beginCycle_env, kept.env,
      beginCycle_cycle, kept.cycle]
    rfl
  have hcycle := machineCycle_waitRbb (beginCycle (hostTurn s)) (kept.phase.trans hp) (kept.kind.trans hk)
  have hend := frame_endCycle (pollReady (beginCycle (hostTurn s)))
  have hpoll : Frame [.phase, .events] (beginCycle (hostTurn s)) (pollReady (beginCycle (hostTurn s))) := by
    rcases pollReady_cases (beginCycle (hostTurn s)) with ⟨-, h⟩ | ⟨-, h⟩ <;> rw [h, frame_iff] <;> simp
  refine ⟨_, step_of_machineCycle s _ hr hcycle, ?_, ?_⟩
  · rw [endCycle_phase, ← hlevel, pollReady]
    split <;> rfl
  · exact (hturn.trans hpoll (ch := outsideRegs ++ [.phase]) (by decide) (by decide)).trans hend (by decide)
      (by decide)

/-- Settles O35: a dispatch writes no strobe and no bus bit, and a move of a running command writes one group of them. -/
theorem cycleChangesNoTwoStrobes : Obligations.CycleChangesNoTwoStrobes := by
  intro s t h
  by_cases hsetup : isSetup s.phase = true
  · rcases machineCycle_setup_cases s hsetup with ⟨-, hc⟩ | ⟨w, -, -, hc⟩ | ⟨c0, c1, rest, u, hhead, hpop, hc⟩ <;>
      rw [h] at hc <;> cases hc
    · exact ⟨.inl rfl, .inr fun _ _ => rfl, fun hne => by simp at hne, rfl⟩
    · exact ⟨.inl rfl, .inr fun _ _ => rfl, fun hne => by simp at hne, rfl⟩
    · have hbits := getLsbD_startCommand_out (decodeHead s.cfg.id5Mode c0 c1) u
      rw [show u.out = s.out from hpop.frame .out (by simp)] at hbits
      refine ⟨.inl (hbits 13), .inr fun k hk => ?_, fun _ => ?_, hbits 15⟩
      · rw [hbits, if_neg (by omega), if_neg (by omega), if_neg (by omega)]
      · rcases hhead with ⟨hp, hq⟩ | ⟨hp, -, hq⟩
        · exact .inl ⟨hp, by simp [hq]⟩
        · exact .inr ⟨hp, by simp [hq]⟩
  · obtain ⟨-, -, hframe, hmove⟩ := machineCycle_running_cases s t (Bool.eq_false_of_not_eq_true hsetup) h
    have hpindir : t.pindir = s.pindir := hframe .pindir (by decide)
    have hwpb := getLsbD_of_move _ _ s t hmove 12 (.inl rfl)
    refine ⟨?_, ?_, fun hne => by simp only [hpindir, hwpb, ne_eq, not_true_eq_false, or_self] at hne,
      getLsbD_of_move _ _ s t hmove 15 (.inr rfl)⟩
    · rcases out_of_move _ _ s t hmove with ho | ⟨w, ho⟩ | ⟨w, ho⟩ | ⟨j, b, hj, ho⟩ <;> rw [ho]
      · exact .inl rfl
      · exact .inl (getLsbD_setPayload s.out w 13)
      · right
        rw [getLsbD_setPayload, if_neg (by decide), getLsbD_setBit _ _ _ _ (by decide), if_neg (by decide)]
      · have hlt : j < 16 := by
          simp only [List.mem_cons, List.not_mem_nil, or_false, pinCle, pinAle, pinWeb, pinReb] at hj
          omega
        rw [getLsbD_setBit _ _ _ _ hlt, getLsbD_setBit _ _ _ _ hlt]
        by_cases h13 : 13 = j
        · exact .inr (if_neg (by omega))
        · exact .inl (if_neg h13)
    · rcases out_of_move _ _ s t hmove with ho | ⟨w, ho⟩ | ⟨w, ho⟩ | ⟨j, b, hj, ho⟩ <;> rw [ho]
      · exact .inl ⟨rfl, rfl⟩
      · exact .inl ⟨getLsbD_setPayload s.out w 10, getLsbD_setPayload s.out w 11⟩
      · left
        rw [getLsbD_setPayload, getLsbD_setPayload, if_neg (by decide), if_neg (by decide),
          getLsbD_setBit _ _ _ _ (by decide), getLsbD_setBit _ _ _ _ (by decide), if_neg (by decide),
          if_neg (by decide)]
        exact ⟨rfl, rfl⟩
      · have hrange : j < 16 ∧ 10 ≤ j := by
          simp only [List.mem_cons, List.not_mem_nil, or_false, pinCle, pinAle, pinWeb, pinReb] at hj
          omega
        right
        intro k hk
        rw [getLsbD_setBit _ _ _ _ hrange.1, if_neg (by omega)]

/-- The control vector as a number, `reb` most significant (10_state R31). -/
theorem getLsbD_toBits (c : Ctrl) :
    c.toBits.getLsbD 0 = c.cle ∧ c.toBits.getLsbD 1 = c.ale ∧ c.toBits.getLsbD 2 = c.wpb ∧
      c.toBits.getLsbD 3 = c.web ∧ c.toBits.getLsbD 4 = c.reb := by
  obtain ⟨reb, web, wpb, ale, cle⟩ := c
  revert reb web wpb ale cle
  decide

/-- Pin `10 + k` is at bit `k` (10_state R31). -/
theorem getLsbD_toBits_ctrlLevels (s : State) (k : Nat) (hk : k < 5) :
    s.ctrlLevels.toBits.getLsbD k = s.level (10 + k) := by
  obtain ⟨hcle, hale, hwpb, hweb, hreb⟩ := getLsbD_toBits s.ctrlLevels
  interval_cases k
  exacts [hcle, hale, hwpb, hweb, hreb]

/-- Settles O36. -/
theorem snapshotShowsPinLevels : Obligations.SnapshotShowsPinLevels := by
  refine fun s => ⟨level_eq s, fun k hk => ?_, getLsbD_toBits_ctrlLevels s, rfl, rfl, rfl, rfl, rfl, rfl⟩
  change s.busLevels.getLsbD k = _
  rw [getLsbD_busLevels, decide_eq_true hk, Bool.true_and]

/-! ### The host (20_memory R70; 46_harness R291, R292) -/

/-- Settles O40. -/
theorem hostActionsOnlyTouchTheirQueue : Obligations.HostActionsOnlyTouchTheirQueue := by
  refine ⟨fun w s hroom => ?_, fun w s hfull => if_neg hfull, fun w rest s hq => ?_, fun s hq => ?_, fun s => ?_,
    fun s => ⟨rfl, rfl⟩⟩
  · refine ⟨_, if_pos hroom, rfl, ?_⟩
    rw [frame_iff]
    simp
  · refine ⟨{ s with rxq := rest, received := s.received ++ [w] }, by simp [hostAct, hq], rfl, rfl, ?_⟩
    rw [frame_iff]
    simp
  · simp [hostAct, hq]
  · refine ⟨_, rfl, rfl, ?_⟩
    rw [frame_iff]
    simp

/-- The two cases of `service_push` (46_harness R292). -/
theorem servicePush_cases (s : State) :
    (s.phase = .rSample ∧ ¬ s.rxq.length < s.cfg.rxDepth ∧ servicePush s = drain s) ∨
    (¬ (s.phase = .rSample ∧ ¬ s.rxq.length < s.cfg.rxDepth) ∧ servicePush s = s) := by
  unfold servicePush
  split
  · next h => exact .inl ⟨h.1, h.2, rfl⟩
  · next h => exact .inr ⟨h, rfl⟩

/-- Settles O41: `service_pop` is `feed`, and `service_push` drains `RXQ` or does nothing. -/
theorem driverSuppliesDemand : Obligations.DriverSuppliesDemand := by
  intro s
  refine ⟨?_, ?_, fun hp hfull => ?_, fun hnot => ?_, ?_⟩
  · obtain ⟨pushed, htxq, hpending, hwithin, henough⟩ := feed_spec (min (demand s) s.cfg.txDepth) s.txq s.pending
    refine ⟨pushed, htxq, hpending, hwithin.symm, ?_⟩
    rw [← htxq] at henough
    exact henough
  · rw [frame_iff]
    simp [servicePop]
  · rcases servicePush_cases s with ⟨-, -, h⟩ | ⟨hnot, -⟩
    · rw [h]
      exact ⟨rfl, rfl⟩
    · exact absurd ⟨hp, by omega⟩ hnot
  · rcases servicePush_cases s with ⟨hp, hfull, -⟩ | ⟨-, h⟩
    · exact absurd hnot (by simp [hp, hfull])
    · exact h
  · rcases servicePush_cases s with ⟨-, -, h⟩ | ⟨-, h⟩ <;> rw [h, frame_iff] <;> simp [drain]

end Sys2Proof.Machine

/-! PROOFS. 45_scenarios R241 to R243, 46_harness R301 to R309, R321, R322, R332, 60_exceptions R353: the builder, the
verifier, the emitter, the opaque program and the batch. -/

namespace Sys2Proof.Machine

/-! ### The scenarios' names (45_scenarios R241) -/

/-- What name selection answers: a scenario of that spelling, or the error when there is none. -/
theorem selectScenario_cases (name : String) :
    (∃ n : ScenarioName, n.text = name ∧ selectScenario name = .ok n) ∨
    ((∀ n : ScenarioName, n.text ≠ name) ∧ selectScenario name = .error (.unknownScenario name)) := by
  by_cases h : ∃ n : ScenarioName, n.text = name
  · obtain ⟨n, rfl⟩ := h
    exact .inl ⟨n, rfl, selectScenario_text n⟩
  · have hnone : ∀ n : ScenarioName, n.text ≠ name := fun n hn => h ⟨n, hn⟩
    refine .inr ⟨hnone, ?_⟩
    have hfind : allScenarios.find? (fun n => n.text == name) = none := by
      rw [List.find?_eq_none]
      exact fun n _ => by simpa using hnone n
    rw [selectScenario, hfind]

/-- Spellings differ. -/
theorem text_injective (n n' : ScenarioName) (h : n.text = n'.text) : n = n' := by
  have hsel := selectScenario_text n
  rw [h, selectScenario_text] at hsel
  exact (Except.ok.inj hsel).symm

/-- Settles O51. -/
theorem unknownScenarioNamed : Obligations.UnknownScenarioNamed := by
  intro name
  rcases selectScenario_cases name with ⟨n, rfl, h⟩ | ⟨hnone, h⟩ <;> rw [h]
  · refine ⟨fun n' => ⟨fun he => congrArg ScenarioName.text (Except.ok.inj he).symm,
      fun ht => by rw [text_injective n' n ht]⟩, ⟨fun hall => absurd rfl (hall n), fun he => nomatch he⟩⟩
  · exact ⟨fun n' => ⟨(fun he => nomatch he), fun ht => absurd ht (hnone n')⟩, ⟨fun _ => rfl, fun _ => hnone⟩⟩

/-! ### The verifier (46_harness R301 to R309) -/

/-- Settles O52, by induction on the end of the run. -/
theorem runStartIsLeast : Obligations.RunStartIsLeast := by
  intro p k
  induction k with
  | zero => exact ⟨Nat.le_refl _, fun j _ hj => by omega, fun j hj => absurd hj (Nat.not_lt_zero j)⟩
  | succ k ih =>
    obtain ⟨hle, hrun, hleast⟩ := ih
    by_cases hp : p k = true
    · rw [runStart, if_pos hp]
      refine ⟨by omega, fun j hj hjk => ?_, fun j hj => ?_⟩
      · by_cases hk : j = k
        · rw [hk, hp]
        · exact hrun j hj (by omega)
      · obtain ⟨i, hji, hik, hpi⟩ := hleast j hj
        exact ⟨i, hji, by omega, hpi⟩
    · rw [runStart, if_neg hp]
      exact ⟨Nat.le_refl _, fun j hj hjk => by omega,
        fun j hj => ⟨k, by omega, by omega, Bool.eq_false_of_not_eq_true hp⟩⟩

theorem reportedBefore_iff (a b : TimingFinding) :
    reportedBefore a b = true ↔ a.cycle < b.cycle ∨ (a.cycle = b.cycle ∧ a.rank < b.rank) := by
  simp [reportedBefore]

theorem firstFinding_eq_none_iff (fs : List TimingFinding) : firstFinding fs = none ↔ fs = [] := by
  cases fs with
  | nil => simp [firstFinding]
  | cons f fs =>
    simp only [firstFinding, reduceCtorEq, iff_false]
    split
    · simp
    · split <;> simp

/-- `f` is reported before `g`, or in its place (46_harness R309). -/
def ReportedFirst (f g : TimingFinding) : Prop := f.cycle < g.cycle ∨ (f.cycle = g.cycle ∧ f.rank ≤ g.rank)

theorem ReportedFirst.trans {f g h : TimingFinding} (hfg : ReportedFirst f g) (hgh : ReportedFirst g h) :
    ReportedFirst f h := by
  unfold ReportedFirst at *
  omega

theorem firstFinding_spec (fs : List TimingFinding) (f : TimingFinding) (h : firstFinding fs = some f) :
    f ∈ fs ∧ ∀ g ∈ fs, ReportedFirst f g := by
  induction fs generalizing f with
  | nil => cases h
  | cons a fs ih =>
    have haa : ReportedFirst a a := .inr ⟨rfl, Nat.le_refl _⟩
    cases hb : firstFinding fs with
    | none =>
      obtain rfl := (firstFinding_eq_none_iff fs).mp hb
      obtain rfl : a = f := Option.some.inj h
      simpa using haa
    | some b =>
      obtain ⟨hmem, hfirst⟩ := ih b hb
      simp only [firstFinding, hb] at h
      split at h
      · next hlt =>
        obtain rfl := Option.some.inj h
        have hba : ReportedFirst b a := ((reportedBefore_iff b a).mp hlt).imp_right fun ⟨hc, hr⟩ => ⟨hc, Nat.le_of_lt hr⟩
        exact ⟨List.mem_cons_of_mem a hmem, List.forall_mem_cons.mpr ⟨hba, hfirst⟩⟩
      · next hge =>
        obtain rfl := Option.some.inj h
        rw [reportedBefore_iff] at hge
        have hab : ReportedFirst a b := by
          unfold ReportedFirst
          omega
        exact ⟨List.mem_cons_self, List.forall_mem_cons.mpr ⟨haa, fun g hg => hab.trans (hfirst g hg)⟩⟩

/-- Settles O54. -/
theorem firstFindingIsReported : Obligations.FirstFindingIsReported :=
  fun fs => ⟨(firstFinding_eq_none_iff fs).symm, firstFinding_spec fs⟩

/-- Check 1 passes exactly when the cycles count up from `expected` (46_harness R301). -/
theorem firstGap_eq_none_iff (expected : Nat) (tr : Trace) :
    firstGap expected tr = none ↔ ∀ (i : Nat) (sn : Snapshot), tr[i]? = some sn → sn.cycle = expected + i := by
  induction tr generalizing expected with
  | nil => simp [firstGap]
  | cons s tr ih =>
    by_cases hs : s.cycle = expected
    · rw [firstGap, if_pos hs, ih]
      constructor
      · intro h i sn hi
        cases i with
        | zero =>
          obtain rfl : s = sn := by simpa using hi
          exact hs
        | succ i =>
          have := h i sn (by simpa using hi)
          omega
      · intro h i sn hi
        have := h (i + 1) sn (by simpa using hi)
        omega
    · rw [firstGap, if_neg hs]
      exact ⟨(fun h => nomatch h), fun h => absurd (h 0 s rfl) hs⟩

/-- Check 3 passes exactly when both occupancies are within the depths (46_harness R307). -/
theorem firstOverflow_eq_none_iff (cfg : Cfg) (tr : Trace) :
    firstOverflow cfg tr = none ↔ ∀ sn ∈ tr, sn.txocc ≤ cfg.txDepth ∧ sn.rxocc ≤ cfg.rxDepth := by
  induction tr with
  | nil => simp [firstOverflow]
  | cons s tr ih =>
    rw [firstOverflow]
    split_ifs <;> simp_all

/-- Check 2b passes exactly when no pin changes within `T_HOLD` cycles after the edge (46_harness R304). -/
theorem holdFindings_eq_nil_iff (cfg : Cfg) (tr : Trace) (e : Nat) :
    holdFindings cfg tr e = [] ↔
      ∀ j : Nat, e < j → j < tr.length → samePins tr j e = false → e + cfg.tHold ≤ j := by
  unfold holdFindings nextChange
  split
  · next n hn =>
    obtain ⟨hp, hmem, hfirst⟩ := List.find?_range_eq_some.mp hn
    simp only [Bool.and_eq_true, decide_eq_true_eq, Bool.not_eq_true', List.mem_range] at hp hmem
    constructor
    · intro h j hej hj hchange
      have hnj : ¬ j < n := fun hlt => by
        have := hfirst j hlt
        simp [hej, hchange] at this
      split at h
      · cases h
      · omega
    · intro h
      rw [if_neg]
      have := h n hp.1 hmem hp.2
      omega
  · next hn =>
    rw [List.find?_eq_none] at hn
    refine ⟨fun _ j hej hj hchange => ?_, fun _ => rfl⟩
    exact absurd (by simp [hej, hchange]) (hn j (List.mem_range.mpr hj))

theorem orderFindings_eq_nil_iff (tr : Trace) (x : Nat → Bool) (e : Nat) :
    orderFindings tr x e = [] ↔ (x e = true → enableStart x e < placementOf tr e) := by
  by_cases hx : x e = true <;> simp [orderFindings, hx]

/-- Check 2 at the write edge `e` (46_harness R303 to R305). -/
def WriteEdgeSound (cfg : Cfg) (tr : Trace) (e : Nat) : Prop :=
  cfg.tSetup ≤ e - placementOf tr e ∧
  (∀ j : Nat, e < j → j < tr.length → samePins tr j e = false → e + cfg.tHold ≤ j) ∧
  (aleAt tr e = true → enableStart (aleAt tr) e < placementOf tr e) ∧
  (cleAt tr e = true → enableStart (cleAt tr) e < placementOf tr e)

theorem findingsAt_eq_nil_iff (cfg : Cfg) (tr : Trace) (i : Nat) :
    findingsAt cfg tr i = [] ↔
      (isWriteEdge tr i = true → WriteEdgeSound cfg tr i) ∧
      (isReadEdge tr i = true → cfg.tRsettle ≤ i - readFallOf tr i) := by
  have hwrite : setupFindings cfg tr i ++ holdFindings cfg tr i ++ orderFindings tr (aleAt tr) i ++
      orderFindings tr (cleAt tr) i = [] ↔ WriteEdgeSound cfg tr i := by
    simp only [List.append_eq_nil_iff, holdFindings_eq_nil_iff, orderFindings_eq_nil_iff, WriteEdgeSound, and_assoc]
    simp [setupFindings]
  unfold findingsAt
  rw [List.append_eq_nil_iff]
  refine and_congr ?_ ?_
  · by_cases hw : isWriteEdge tr i = true
    · rw [if_pos hw, hwrite]
      simp [hw]
    · simp [hw]
  · by_cases hr : isReadEdge tr i = true <;> simp [hr, settleFindings]

/-- Check 2 passes exactly when every edge passes it. -/
theorem timingFindings_eq_nil_iff (cfg : Cfg) (tr : Trace) :
    timingFindings cfg tr = [] ↔
      (∀ e : Nat, isWriteEdge tr e = true → WriteEdgeSound cfg tr e) ∧
      (∀ r : Nat, isReadEdge tr r = true → cfg.tRsettle ≤ r - readFallOf tr r) := by
  have hwrite : ∀ e, isWriteEdge tr e = true → e < tr.length := fun e he => by
    simp only [isWriteEdge, Bool.and_eq_true, decide_eq_true_eq] at he
    exact he.1.1.2
  have hread : ∀ r, isReadEdge tr r = true → r < tr.length := fun r hr => by
    simp only [isReadEdge, Bool.and_eq_true, decide_eq_true_eq] at hr
    exact hr.1.1.2
  simp only [timingFindings, List.flatMap_eq_nil_iff, List.mem_range, findingsAt_eq_nil_iff]
  exact ⟨fun h => ⟨fun e he => (h e (hwrite e he)).1 he, fun r hr => (h r (hread r hr)).2 hr⟩,
    fun ⟨hw, hr⟩ i _ => ⟨hw i, hr i⟩⟩

/-- The verifier passes exactly when none of its checks reports anything. -/
theorem verify_ok_iff (cfg : Cfg) (declOut declIn : Nat) (received : List Word) (tr : Trace) :
    verify cfg declOut declIn received tr = .ok () ↔
      firstGap 0 tr = none ∧ timingFindings cfg tr = [] ∧ firstOverflow cfg tr = none ∧
        countsAgree declOut declIn received tr = true := by
  rw [← firstFinding_eq_none_iff]
  unfold verify
  split
  · next h => simp [h]
  · next h1 =>
    split
    · next h => simp [h]
    · next h2 =>
      split
      · next h => simp [h]
      · next h3 =>
        split
        · next h => simp [h1, h2, h3, h]
        · next h => simp [h]

/-- Settles O53: each check is the clause that says the same of the trace. -/
theorem verifierPassesExactlySoundTraces : Obligations.VerifierPassesExactlySoundTraces := by
  intro cfg declOut declIn received tr
  rw [verify_ok_iff, firstGap_eq_none_iff, timingFindings_eq_nil_iff, firstOverflow_eq_none_iff]
  simp only [countsAgree, Bool.and_eq_true, decide_eq_true_eq, Nat.zero_add]
  constructor
  · rintro ⟨hgap, ⟨hwrite, hread⟩, hocc, ⟨hr, hw⟩, hlen⟩
    exact ⟨fun i sn hi => ⟨hgap i sn hi, hocc sn (List.mem_of_getElem? hi)⟩, hwrite, hread, hr, hw, hlen⟩
  · rintro ⟨hsnap, hwrite, hread, hr, hw, hlen⟩
    refine ⟨fun i sn hi => (hsnap i sn hi).1, ⟨hwrite, hread⟩, fun sn hsn => ?_, ⟨hr, hw⟩, hlen⟩
    obtain ⟨i, hi⟩ := List.getElem?_of_mem hsn
    exact (hsnap i sn hi).2

/-! ### The emitter (46_harness R321, R322) -/

/-- The entries of a contiguous trace are from its first cycle on. -/
theorem le_cycle_of_mem_entries (expected : Nat) (tr : Trace) (h : firstGap expected tr = none) (x : Nat × Event)
    (hx : x ∈ tr.flatMap eventEntries) : expected ≤ x.1 := by
  obtain ⟨sn, hsn, hx⟩ := List.mem_flatMap.mp hx
  obtain ⟨i, hi⟩ := List.getElem?_of_mem hsn
  obtain ⟨e, -, rfl⟩ := List.mem_map.mp hx
  have := (firstGap_eq_none_iff expected tr).mp h i sn hi
  simp only
  omega

/-- A contiguous trace is contiguous from its second snapshot on. -/
theorem firstGap_cons (expected : Nat) (s : Snapshot) (tr : Trace) :
    firstGap expected (s :: tr) = none ↔ s.cycle = expected ∧ firstGap (expected + 1) tr = none := by
  rw [firstGap]
  by_cases h : s.cycle = expected <;> simp [h]

/-- In the event record of a contiguous trace the entries of the first cycle are the first snapshot's. -/
theorem filter_entries_cons (s : Snapshot) (tr : Trace) (h : firstGap (s.cycle + 1) tr = none) :
    ((s :: tr).flatMap eventEntries).filter (fun x => decide (x.1 = s.cycle)) = eventEntries s ∧
    ((s :: tr).flatMap eventEntries).filter (fun x => !decide (x.1 = s.cycle)) = tr.flatMap eventEntries := by
  have hhead : ∀ x ∈ eventEntries s, x.1 = s.cycle := fun x hx => by
    obtain ⟨e, -, rfl⟩ := List.mem_map.mp hx
    rfl
  have htail : ∀ x ∈ tr.flatMap eventEntries, x.1 ≠ s.cycle := fun x hx => by
    have := le_cycle_of_mem_entries _ tr h x hx
    omega
  simp only [List.flatMap_cons, List.filter_append]
  constructor
  · rw [List.filter_eq_self.mpr fun x hx => by simpa using hhead x hx,
      List.filter_eq_nil_iff.mpr fun x hx => by simpa using htail x hx, List.append_nil]
  · rw [List.filter_eq_nil_iff.mpr fun x hx => by simpa using hhead x hx,
      List.filter_eq_self.mpr fun x hx => by simpa using htail x hx, List.nil_append]

/-- A snapshot is what its entries say. -/
theorem snapshot_eq_of_entries (s s' : Snapshot) (hstate : stateEntry s = stateEntry s') (htx : txEntry s = txEntry s')
    (hrx : rxEntry s = rxEntry s') (hevents : eventEntries s = eventEntries s') : s = s' := by
  obtain ⟨cycle, ⟨reb, web, wpb, ale, cle⟩, bus, txocc, rxocc, completion, rbb, events⟩ := s
  obtain ⟨cycle', ⟨reb', web', wpb', ale', cle'⟩, bus', txocc', rxocc', completion', rbb', events'⟩ := s'
  have hev : events = events' := by
    simpa [eventEntries, Function.comp_def] using congrArg (List.map Prod.snd) hevents
  have ht : txocc = txocc' := congrArg TxEntry.txocc htx
  have hr : rxocc = rxocc' := congrArg RxEntry.rxocc hrx
  simp_all [stateEntry]

theorem emit_injective_from (expected : Nat) (tr tr' : Trace) (h : firstGap expected tr = none)
    (h' : firstGap expected tr' = none) (he : emit tr = emit tr') : tr = tr' := by
  obtain ⟨hevents, hstates, htx, hrx⟩ := (Records.mk.injEq ..).mp he
  induction tr generalizing expected tr' with
  | nil =>
    cases tr' with
    | nil => rfl
    | cons s' tr' => simp at hstates
  | cons s tr ih =>
    cases tr' with
    | nil => simp at hstates
    | cons s' tr' =>
      obtain ⟨hs, hgap⟩ := (firstGap_cons expected s tr).mp h
      obtain ⟨hs', hgap'⟩ := (firstGap_cons expected s' tr').mp h'
      obtain ⟨hfst, hfst'⟩ := List.cons.inj hstates
      obtain ⟨htx, htx'⟩ := List.cons.inj htx
      obtain ⟨hrx, hrx'⟩ := List.cons.inj hrx
      obtain ⟨hhead, htail⟩ := filter_entries_cons s tr (by rwa [hs])
      obtain ⟨hhead', htail'⟩ := filter_entries_cons s' tr' (by rwa [hs'])
      rw [hevents, hs, ← hs'] at hhead htail
      obtain rfl := snapshot_eq_of_entries s s' hfst htx hrx (hhead.symm.trans hhead')
      have hrest : tr.flatMap eventEntries = tr'.flatMap eventEntries := htail.symm.trans htail'
      rw [ih (expected + 1) tr' hgap hgap' (by simp only [emit, hrest, hfst', htx', hrx']) hrest hfst' htx' hrx']

/-- Settles O55: snapshot by snapshot, the event record divided by its cycles. -/
theorem emitterDropsNothing : Obligations.EmitterDropsNothing := emit_injective_from 0

/-! ### The opaque program (46_harness R332; 20_memory R61) -/

theorem length_bytesOfWords (ws : List Word) : (bytesOfWords ws).length = 4 * ws.length := by
  induction ws with
  | nil => rfl
  | cons w ws ih =>
    rw [bytesOfWords_cons, List.length_append, bytesOfWord_length, ih, List.length_cons]
    omega

theorem wordsOfBytes_bytesOfWords (ws : List Word) : wordsOfBytes (bytesOfWords ws) = ws := by
  induction ws with
  | nil => rfl
  | cons w ws ih => rw [bytesOfWords_cons, wordsOfBytes_bytesOfWord, ih]

theorem getElem?_bytesOfWord (w : Word) (j : Nat) (hj : j < 4) :
    (bytesOfWord w)[j]? = some (w.extractLsb' (8 * j) 8) := by
  interval_cases j <;> rfl

/-- Byte `4 k + j` of the image is byte `j` of word `k`. -/
theorem getElem?_bytesOfWords (ws : List Word) (k j : Nat) (w : Word) (hk : ws[k]? = some w) (hj : j < 4) :
    (bytesOfWords ws)[4 * k + j]? = some (w.extractLsb' (8 * j) 8) := by
  induction ws generalizing k with
  | nil => simp at hk
  | cons v ws ih =>
    rw [bytesOfWords_cons]
    cases k with
    | zero =>
      obtain rfl : v = w := by simpa using hk
      rw [List.getElem?_append_left (by rw [bytesOfWord_length]; omega), Nat.mul_zero, Nat.zero_add]
      exact getElem?_bytesOfWord v j hj
    | succ k =>
      rw [List.getElem?_append_right (by rw [bytesOfWord_length]; omega), bytesOfWord_length,
        show 4 * (k + 1) + j - 4 = 4 * k + j by omega]
      exact ih k (by simpa using hk)

/-- Settles O57. -/
theorem programEmissionsAgree : Obligations.ProgramEmissionsAgree := fun program =>
  ⟨rfl, length_bytesOfWords program, wordsOfBytes_bytesOfWords program, getElem?_bytesOfWords program, rfl⟩

/-! ### The builder (45_scenarios R242, R243) -/

/-- `build` answers words exactly when its lines assemble to them and none of its own parameters is out of range. -/
theorem build_ok_iff (m : Id5Mode) (p : Params) (n : ScenarioName) (ws : List Word) :
    build m p n = .ok ws ↔ assemble m (expansion p n) = .ok ws ∧ p.firstOutside n = none := by
  rcases build_cases m p n with ⟨e, ha, hb⟩ | ⟨us, which, v, ha, ho, hb⟩ | ⟨us, ha, ho, hb⟩ <;> rw [ha, hb]
  · simp
  · simp [ho]
  · simp [ho]

theorem build_error_iff (m : Id5Mode) (p : Params) (n : ScenarioName) (e : HarnessError) :
    build m p n = .error (.error e) ↔ assemble m (expansion p n) = .error e := by
  rcases build_cases m p n with ⟨e', ha, hb⟩ | ⟨us, which, v, ha, ho, hb⟩ | ⟨us, ha, ho, hb⟩ <;> rw [ha, hb] <;> simp

/-- Settles O56: the checks a scenario makes are those of the parameters it uses. -/
theorem builderChecksParameterRanges : Obligations.BuilderChecksParameterRanges := by
  refine ⟨fun m p n ws => ?_, build_error_iff⟩
  rw [build_ok_iff, firstOutside_eq_none]
  refine and_congr_right fun _ => ?_
  cases n <;> simp [Params.rangeChecks, outside_eq_none] <;> omega

/-- A line within the bounds of its fields (30_encoding R113, R122). -/
def LineInRange : Line → Prop
  | .addrLatch _ _ bytes => 1 ≤ bytes.length ∧ bytes.length ≤ 4096
  | .dataInput _ _ bytes => 1 ≤ bytes.length ∧ bytes.length ≤ 4096
  | .dataOutput _ count => 1 ≤ count ∧ count ≤ 4096
  | .signal _ => False
  | .bitbang .. | .cmdLatch .. | .waitRbb _ | .raw .. => True

theorem pay_le (cs : BitVec 2) (b : Byte) : pay cs b ≤ 1023 := by
  have := (cs ++ b).isLt
  rw [pay]
  omega

/-- `encode_cmd` succeeds for a kind of the variant with a count in range, 1 for a kind that does not loop, and a payload
of as many P10 items as the kind has (30_encoding R112, R113). -/
theorem encodeCmd_ok (m : Id5Mode) (k : Kind) (count : Nat) (pd : BitVec 16) (payload : List Nat) (hk : k ≠ .signal)
    (hcount : 1 ≤ count ∧ count ≤ 4096) (hloop : isLooping k = true ∨ count = 1)
    (hlen : payload.length = paylen (canonicalId m k) (count - 1)) (hitems : ∀ v ∈ payload, v ≤ 1023) :
    ∃ ws : List Word, encodeCmd m k count pd.toNat payload = .ok ws := by
  have hid : canonicalId m k ≤ 15 := by cases m <;> cases k <;> decide
  have hpd := pd.isLt
  have hok : encodeCheck (canonicalId m k) (count - 1) pd.toNat payload = none :=
    (encodeCheck_eq_none_iff _ _ _ _).mpr ⟨hid, by omega, by omega, hlen, hitems⟩
  refine ⟨encodeResult (canonicalId m k) (count - 1) pd.toNat payload, ?_⟩
  rw [encodeCmd, if_neg (by simp [hk]), if_neg (by simp [hcount]), if_neg (by rcases hloop with h | h <;> simp [h])]
  exact encodeFrame_of_check _ _ _ _ hok

theorem assembleLine_ok (m : Id5Mode) (l : Line) (h : LineInRange l) :
    ∃ ws : List Word, assembleLine m l = .ok ws := by
  have hitems (cs : BitVec 2) (bs : List Byte) : ∀ v ∈ bs.map (pay cs), v ≤ 1023 := fun v hv => by
    obtain ⟨b, -, rfl⟩ := List.mem_map.mp hv
    exact pay_le cs b
  cases l with
  | bitbang pd cs b => exact encodeCmd_ok m .bitbang 1 pd _ (by simp) (by simp) (.inr rfl) rfl (hitems cs [b])
  | cmdLatch pd cs b => exact encodeCmd_ok m .cmdLatch 1 pd _ (by simp) (by simp) (.inr rfl) rfl (hitems cs [b])
  | addrLatch pd cs bs =>
    obtain ⟨hlo, hhi⟩ := h
    refine encodeCmd_ok m .addrLatch bs.length pd _ (by simp) ⟨hlo, hhi⟩ (.inl rfl) ?_ (hitems cs bs)
    rw [List.length_map]
    exact (Nat.sub_add_cancel hlo).symm
  | dataInput pd cs bs =>
    obtain ⟨hlo, hhi⟩ := h
    refine encodeCmd_ok m .dataInput bs.length pd _ (by simp) ⟨hlo, hhi⟩ (.inl rfl) ?_ (hitems cs bs)
    rw [List.length_map]
    exact (Nat.sub_add_cancel hlo).symm
  | dataOutput pd n => exact encodeCmd_ok m .dataOutput n pd [] (by simp) h (.inl rfl) rfl (by simp)
  | signal pd => exact h.elim
  | waitRbb pd =>
    exact encodeCmd_ok m .waitRbb 1 pd [] (by simp) (by simp) (.inr rfl) (by cases m <;> rfl) (by simp)
  | raw => exact ⟨_, rfl⟩

theorem assemble_ok (m : Id5Mode) (ls : List Line) (h : ∀ l ∈ ls, LineInRange l) :
    ∃ ws : List Word, assemble m ls = .ok ws := by
  induction ls with
  | nil => exact ⟨[], rfl⟩
  | cons l ls ih =>
    obtain ⟨front, hfront⟩ := assembleLine_ok m l (h l List.mem_cons_self)
    obtain ⟨back, hback⟩ := ih fun l' hl' => h l' (List.mem_cons_of_mem l hl')
    exact ⟨front ++ back, by rw [assemble, hfront]; simp [hback]⟩

@[simp] theorem length_addrBytes (v n : Nat) : (addrBytes v n).length = n := by simp [addrBytes]

/-- Settles O58: within the ranges every line of every expansion is in range. -/
theorem inRangeParametersBuildEveryScenario : Obligations.InRangeParametersBuildEveryScenario := by
  intro m p n hid hrow hsum hread hprog
  have hrange : p.inRange = true := (inRange_iff p).mpr ⟨hid, by omega, hrow, by omega, hread, hprog⟩
  have hlines : ∀ l ∈ expansion p n, LineInRange l := by
    cases n <;> simp [expansion, LineInRange] <;> omega
  obtain ⟨ws, hws⟩ := assemble_ok m _ hlines
  exact ⟨hrange, ws, (build_ok_iff m p n ws).mpr ⟨hws, firstOutside_of_inRange p n hrange⟩⟩

/-! ### The batch (60_exceptions R353) -/

/-- A scenario that is run by its name is run by its spelling. -/
theorem runScenario_text (cfg : Cfg) (p : Params) (rbbIn : Nat → Bool) (chipIo : Nat → Byte) (n : ScenarioName) :
    runScenario cfg p rbbIn chipIo n.text = runNamed cfg p rbbIn chipIo n := by
  rw [runScenario, selectScenario_text]

theorem verdictOf_eq_passed_iff (r : Except RunStop ScenarioResult) :
    verdictOf r = .passed ↔ ∃ out : ScenarioResult, r = .ok out := by
  cases r <;> simp [verdictOf]

/-- A scenario's lines and checks take no parameter but its own, so `build` does not either. -/
theorem build_congr (m : Id5Mode) (p q : Params) (n : ScenarioName) (hlines : expansion q n = expansion p n)
    (hchecks : q.rangeChecks n = p.rangeChecks n) : build m q n = build m p n := by
  simp only [build, Params.firstOutside, hlines, hchecks]

/-- Settles O59: the batch maps over the six names; the parameters changed stand in no line and no check of the
scenario. -/
theorem batchIsolatesScenarios : Obligations.BatchIsolatesScenarios := by
  refine ⟨fun cfg p rbbIn chipIo => ⟨?_, ?_⟩, fun m p n v data => ⟨fun h1 => ?_, fun h1 => ?_, fun h1 => ?_,
    fun h1 h2 => ?_, fun h1 h2 h3 => ?_⟩⟩
  · simp only [runScenario_text]
    rfl
  · simp [runAll, verdictOf_eq_passed_iff]
  · cases n with
    | readId => exact absurd rfl h1
    | _ => exact build_congr m p _ _ rfl rfl
  · cases n with
    | read => exact absurd rfl h1
    | _ => exact build_congr m p _ _ rfl rfl
  · cases n with
    | program => exact absurd rfl h1
    | _ => exact build_congr m p _ _ rfl rfl
  · cases n with
    | read => exact absurd rfl h1
    | program => exact absurd rfl h2
    | _ => exact build_congr m p _ _ rfl rfl
  · cases n with
    | read => exact absurd rfl h1
    | program => exact absurd rfl h2
    | erase => exact absurd rfl h3
    | _ => exact build_congr m p _ _ rfl rfl

end Sys2Proof.Machine

/-! PROOFS. 40_dispatch R153, R154; 46_harness R291 to R294: runs of several cycles under the driver. -/

namespace Sys2Proof.Machine

/-! ### Stretches of a run -/

/-- A run of the driver that is not over. -/
structure Driven (s : State) : Prop where
  valid : s.cfg.valid = true
  host : s.host = .driver
  unfinished : s.finished = false

/-- `n` steps from `s` to `t`, none of them into SETUP_A before the last, that add the snapshots `tr` and leave the run
going. -/
structure Stretch (n : Nat) (s t : State) (tr : Trace) : Prop where
  run : Host.Core.run core n s = .next t
  busy : BusyUntil n s
  trace : t.trace = s.trace ++ tr
  length : tr.length = n
  cycle : t.cycle = s.cycle + n
  cycles : ∀ (j : Nat) (sn : Snapshot), tr[j]? = some sn → sn.cycle = s.cycle + j
  ext : ∀ c : Nat, t.cycle ≤ c → extAt t c = extAt s c
  cfg : t.cfg = s.cfg
  host : t.host = s.host
  finished : t.finished = s.finished

theorem Stretch.driven {n : Nat} {s t : State} {tr : Trace} (h : Stretch n s t tr) (hd : Driven s) : Driven t :=
  ⟨by rw [h.cfg, hd.valid], h.host.trans hd.host, h.finished.trans hd.unfinished⟩

theorem Stretch.newTrace {n : Nat} {s t : State} {tr : Trace} (h : Stretch n s t tr) : newTrace s t = tr := by
  rw [Sys2Proof.Machine.newTrace, h.trace, List.drop_left]

/-- The states after a stretch are those of the run from its end. -/
theorem afterSteps_add {n m : Nat} {s t : State} {P : State → Prop} (h : Host.Core.run core n s = .next t)
    (k : AfterSteps m t P) : AfterSteps (n + m) s P := by
  obtain ⟨u, hu, hp⟩ := k
  exact ⟨u, (run_add n m s t h).trans hu, hp⟩

/-- A run is busy over two stretches when it is busy over each and between them. -/
theorem busyUntil_add {n m : Nat} {s t : State} (hrun : Host.Core.run core n s = .next t) (hn : BusyUntil n s)
    (ht : t.phase ≠ .setupA) (hm : BusyUntil m t) : BusyUntil (n + m) s := by
  intro k hk hkm
  rcases Nat.lt_trichotomy k n with hlt | rfl | hgt
  · exact hn k hk hlt
  · exact ⟨t, hrun, ht⟩
  · have h := afterSteps_add hrun (hm (k - n) (by omega) (by omega))
    rwa [Nat.add_sub_cancel' (by omega)] at h

theorem busyUntil_one (s : State) : BusyUntil 1 s := fun k hk hk1 => by omega

theorem Stretch.trans {n m : Nat} {s t u : State} {tr tr' : Trace} (h : Stretch n s t tr) (ht : t.phase ≠ .setupA)
    (k : Stretch m t u tr') : Stretch (n + m) s u (tr ++ tr') where
  run := (run_add n m s t h.run).trans k.run
  busy := busyUntil_add h.run h.busy ht k.busy
  trace := by rw [k.trace, h.trace, List.append_assoc]
  length := by rw [List.length_append, h.length, k.length]
  cycle := by rw [k.cycle, h.cycle, Nat.add_assoc]
  cycles j sn hj := by
    rw [List.getElem?_append] at hj
    split at hj
    · exact h.cycles j sn hj
    · next hge =>
      rw [k.cycles _ sn hj, h.cycle, ← h.length]
      omega
  ext c hc := by
    rw [k.ext c hc]
    exact h.ext c (by rw [k.cycle] at hc; omega)
  cfg := k.cfg.trans h.cfg
  host := k.host.trans h.host
  finished := k.finished.trans h.finished

/-- A stretch and one more step, whatever that step leaves of the run. -/
theorem Stretch.then_step {n : Nat} {s t u : State} {tr : Trace} (h : Stretch n s t tr) (ht : t.phase ≠ .setupA)
    (hstep : step t = .next u) : BusyUntil (n + 1) s ∧ Host.Core.run core (n + 1) s = .next u :=
  ⟨busyUntil_add h.run h.busy ht (busyUntil_one t),
    (run_add n 1 s t h.run).trans ((run_succ_of_next 0 t u hstep).trans (run_zero u))⟩

theorem done_of_kind (s : State) (h : isTerminator s.kind = false) : done s = false := by
  simp [done, h]

theorem done_of_phase (s : State) (h : s.phase ≠ .setupA) : done s = false := by
  simp [done, h]

theorem runnable_of_driven (s : State) (hd : Driven s) (hc : s.cycle < s.cfg.maxCycles) : Runnable s := by
  refine ⟨hd.valid, hd.unfinished, Bool.eq_false_of_not_eq_true fun h => ?_⟩
  obtain ⟨-, hle⟩ := (atCeiling_iff s).mp h
  omega

/-- One step of the driver that does not end the run. -/
theorem Stretch.single (s u : State) (hd : Driven s) (hc : s.cycle < s.cfg.maxCycles)
    (h : machineCycle (beginCycle (hostTurn s)) = .next u) (hnot : done u = false) :
    Stretch 1 s (endCycle u) [snapshot u] := by
  have kept := outsideKept_machineCycle _ _ h
  have turn := registersKept_hostTurn s
  have hend := frame_endCycle_of_not_done u hnot
  have hcycle : u.cycle = s.cycle := kept.cycle.trans turn.cycle
  have henv : u.env = s.env := kept.env.trans turn.env
  have hmove : (endCycle u).cycle = s.cycle + 1 ∧ (endCycle u).env = s.env.tail := by
    rcases endCycle_cases u with ⟨-, hdone, -⟩ | ⟨-, he⟩
    · simp [hnot] at hdone
    · rw [he, ← hcycle, ← henv]
      exact ⟨rfl, rfl⟩
  have hstep := step_of_machineCycle s u (runnable_of_driven s hd hc) h
  have hhost : (hostTurn s).host = s.host := by rw [hd.host]; exact (hostTurn_of_driver s hd.host).2.1
  exact {
    run := (run_succ_of_next 0 s _ hstep).trans (run_zero _)
    busy := busyUntil_one s
    trace := by rw [endCycle_trace, trace_of_cycle s u h]
    length := rfl
    cycle := hmove.1
    cycles := fun j sn hj => by
      obtain ⟨hlt, hsn⟩ := List.getElem?_eq_some_iff.mp hj
      obtain rfl : j = 0 := Nat.lt_one_iff.mp hlt
      rw [← hsn]
      exact hcycle
    ext := fun c hc => extAt_of_next_cycle s _ c hmove.1 hmove.2 (by rwa [← hmove.1])
    cfg := (hend .cfg (by simp)).trans (kept.cfg.trans turn.cfg)
    host := (hend .host (by simp)).trans (kept.host.trans hhost)
    finished := (hend .finished (by simp)).trans (kept.finished.trans turn.finished) }

/-! ### The driver's turn (46_harness R291, R292) -/

/-- With as many words in the queue as needed the driver pushes nothing. -/
theorem feed_of_le (need : Nat) (q ws : List Word) (h : need ≤ q.length) : feed need q ws = (q, ws) := by
  cases ws with
  | nil => rfl
  | cons w ws => exact if_neg (Nat.not_lt.mpr h)

/-- Without a demand the driver pushes nothing. -/
theorem servicePop_of_no_demand (s : State) (h : demand s = 0) : servicePop s = s := by
  simp only [servicePop, h, Nat.zero_min, feed_of_le 0 s.txq s.pending (Nat.zero_le _)]

/-- The driver does nothing before a step that neither pops nor samples. -/
theorem hostTurn_idle (s : State) (hd : s.host = .driver) (hdemand : demand s = 0) (hp : s.phase ≠ .rSample) :
    hostTurn s = s := by
  rw [hostTurn, hd]
  simp only [servicePop_of_no_demand s hdemand]
  rw [servicePush, if_neg fun h => hp h.1]

/-- Before a cycle of a phase that pops nothing and samples nothing the machine is as the last step left it. -/
theorem machineCycle_turn_idle (s : State) (hd : Driven s) (hrun : isSetup s.phase = false) (hdemand : demand s = 0)
    (hp : s.phase ≠ .rSample) (hbelongs : phaseBelongs s.kind s.phase = true) :
    machineCycle (beginCycle (hostTurn s)) = .next (phaseCycle s.kind s.phase (beginCycle s)) := by
  rw [hostTurn_idle s hd.host hdemand hp, machineCycle_running (beginCycle s) hrun, phaseOutcome]
  exact if_pos hbelongs

/-! ### The snapshots of a stretch -/

/-- The snapshot shows the latches `o` on the pins that `pd` makes outputs: the bus, `cle` and `web`. -/
def Shows (pd o : Pins) (sn : Snapshot) : Prop :=
  (∀ k : Nat, k < 10 → pd.getLsbD k = true → sn.bus.getLsbD k = o.getLsbD k) ∧
  (pd.getLsbD 10 = true → sn.ctrl.cle = o.getLsbD 10) ∧
  (pd.getLsbD 13 = true → sn.ctrl.web = o.getLsbD 13)

theorem shows_snapshot (s : State) : Shows s.pindir s.out (snapshot s) := by
  refine ⟨fun k hk hpd => ?_, fun hpd => ?_, fun hpd => ?_⟩
  · rw [show (snapshot s).bus = s.busLevels from rfl, getLsbD_busLevels, decide_eq_true hk, Bool.true_and,
      level_eq s k (by omega), if_pos hpd]
  · exact (level_eq s 10 (by decide)).trans (if_pos hpd)
  · exact (level_eq s 13 (by decide)).trans (if_pos hpd)

/-- The snapshots of a timed phase pair: the first records `evs`, the others nothing, and all show the latches `o`. -/
def TimedTrace (pd o : Pins) (evs : List Event) (tr : Trace) : Prop :=
  ∃ (sn : Snapshot) (tl : Trace), tr = sn :: tl ∧ sn.events = evs ∧ (∀ x ∈ tl, x.events = []) ∧ ∀ x ∈ tr, Shows pd o x

theorem traceEvents_append (tr tr' : Trace) : traceEvents (tr ++ tr') = traceEvents tr ++ traceEvents tr' := by
  simp [traceEvents]

theorem poppedWords_append (tr tr' : Trace) : poppedWords (tr ++ tr') = poppedWords tr ++ poppedWords tr' := by
  simp [poppedWords, traceEvents_append]

theorem pushedWords_append (tr tr' : Trace) : pushedWords (tr ++ tr') = pushedWords tr ++ pushedWords tr' := by
  simp [pushedWords, traceEvents_append]

theorem latchedBus_append (k : Kind) (tr tr' : Trace) :
    latchedBus k (tr ++ tr') = latchedBus k tr ++ latchedBus k tr' := by
  simp [latchedBus]

theorem TimedTrace.traceEvents {pd o : Pins} {evs : List Event} {tr : Trace} (h : TimedTrace pd o evs tr) :
    traceEvents tr = evs := by
  obtain ⟨sn, tl, rfl, rfl, hquiet, -⟩ := h
  have htl : tl.flatMap Snapshot.events = [] := List.flatMap_eq_nil_iff.mpr hquiet
  rw [Sys2Proof.Machine.traceEvents, List.flatMap_cons, htl, List.append_nil]

theorem TimedTrace.latchedBus_of_no_pulse {pd o : Pins} {evs : List Event} {tr : Trace} (h : TimedTrace pd o evs tr)
    (k : Kind) (hno : .latchPulse k ∉ evs) : latchedBus k tr = [] := by
  have hall : ∀ x ∈ tr, ¬ x.events.any (isPulseOf k) = true := by
    obtain ⟨sn, tl, rfl, rfl, hquiet, -⟩ := h
    intro x hx
    rcases List.mem_cons.mp hx with rfl | hx
    · simpa [isPulseOf] using hno
    · simp [hquiet x hx]
  rw [latchedBus, List.filter_eq_nil_iff.mpr hall]
  rfl

/-- The bus of the one snapshot that holds the pulse. -/
theorem TimedTrace.latchedBus_of_pulse {pd o : Pins} {tr : Trace} (k : Kind)
    (h : TimedTrace pd o [.latchPulse k] tr) :
    ∃ b : BitVec 10, latchedBus k tr = [b] ∧
      ∀ j : Nat, j < 10 → pd.getLsbD j = true → b.getLsbD j = o.getLsbD j := by
  obtain ⟨sn, tl, rfl, hevs, hquiet, hshows⟩ := h
  have htl : tl.filter (fun s => s.events.any (isPulseOf k)) = [] :=
    List.filter_eq_nil_iff.mpr fun x hx => by simp [hquiet x hx]
  refine ⟨sn.bus, ?_, (hshows sn List.mem_cons_self).1⟩
  rw [latchedBus, List.filter_cons, htl, hevs]
  simp [isPulseOf]

/-! ### Timed phase pairs (40_dispatch R151) -/

/-- The move to a phase by the value of `CNT` (40_dispatch R150): the phase and the new counter. -/
def State.succeed (f : BitVec 12 → Phase × BitVec 12) (s : State) : State :=
  { s with phase := (f s.cnt).1, cnt := (f s.cnt).2 }

/-- A plain successor. -/
def plainly (p : Phase) (c : BitVec 12) : Phase × BitVec 12 := (p, c)

/-- `loop_back(first, exit)` (40_dispatch R150). -/
def loopingTo (first exit : Phase) (c : BitVec 12) : Phase × BitVec 12 := if c = 0 then (exit, c) else (first, c - 1)

/-- `after_w()` (41_pin_commands R180). -/
def afterPulseTo (k : Kind) : BitVec 12 → Phase × BitVec 12 :=
  match k with
  | .addrLatch => loopingTo .wPlace .alExit
  | .dataInput => loopingTo .wPlace .setupA
  | .bitbang | .cmdLatch | .dataOutput | .signal | .waitRbb => plainly .clExit

theorem goto_eq_succeed (p : Phase) : (State.goto · p) = State.succeed (plainly p) := rfl

theorem loopBack_eq_succeed (first exit : Phase) : loopBack first exit = State.succeed (loopingTo first exit) := by
  funext s
  rw [State.succeed, loopingTo]
  rcases loopBack_cases first exit s with ⟨h0, h⟩ | ⟨h0, h⟩ <;> rw [h]
  · simp only [if_pos h0]
    rfl
  · simp only [if_neg h0]
    rfl

theorem afterPulse_eq_succeed (k : Kind) : afterPulse k = State.succeed (afterPulseTo k) := by
  cases k with
  | addrLatch | dataInput => exact loopBack_eq_succeed _ _
  | _ => rfl

/-- What a timed phase pair writes beyond its first cycle, with the bookkeeping of the run. -/
def timedRegs : List Reg := [.tmr, .phase, .cnt, .trace, .cycle, .env, .events]

/-- `t` is where the successor `f` leads from `v`. -/
structure Succeeded (f : BitVec 12 → Phase × BitVec 12) (v t : State) : Prop where
  phase : t.phase = (f v.cnt).1
  cnt : t.cnt = (f v.cnt).2
  frame : Frame timedRegs v t

/-- The end of the cycle that takes the successor. -/
theorem succeeded_endCycle (f : BitVec 12 → Phase × BitVec 12) (v x : State) (hx : Frame timedRegs v x)
    (hcnt : x.cnt = v.cnt) (hnot : done (x.succeed f) = false) : Succeeded f v (endCycle (x.succeed f)) := by
  have hsucc : Frame [.phase, .cnt] x (x.succeed f) := by
    rw [frame_iff]
    simp [State.succeed]
  refine ⟨?_, ?_, (hx.trans hsucc (List.Subset.refl _) (by decide)).trans (frame_endCycle_of_not_done _ hnot)
    (List.Subset.refl _) (by decide)⟩
  · rw [endCycle_phase, ← hcnt]
    rfl
  · rw [endCycle_cnt, ← hcnt]
    rfl

/-- States that differ only in what the pair writes, with the same counter, have the same successor. -/
theorem Succeeded.of_frame {f : BitVec 12 → Phase × BitVec 12} {s v t : State} (h : Succeeded f v t)
    (hframe : Frame timedRegs s v) (hcnt : v.cnt = s.cnt) : Succeeded f s t :=
  ⟨by rw [h.phase, hcnt], by rw [h.cnt, hcnt], hframe.trans h.frame (List.Subset.refl _) (List.Subset.refl _)⟩

theorem isWaiting_idle (s : State) (h : isWaiting s.phase = true) :
    demand s = 0 ∧ s.phase ≠ .rSample ∧ isSetup s.phase = false ∧ s.phase ≠ .setupA := by
  unfold demand
  cases hp : s.phase <;> simp_all [isWaiting, isSetup]

/-- A waiting phase of a kind that does not end the run, with its successor. -/
structure Waits (k : Kind) (wait : Phase) (f : BitVec 12 → Phase × BitVec 12) : Prop where
  waiting : isWaiting wait = true
  belongs : phaseBelongs k wait = true
  row : ∀ s : State, phaseCycle k wait s = waitTimed wait (State.succeed f) s
  goesOn : isTerminator k = false

/-- One waiting cycle under the driver. -/
theorem Waits.machineCycle {wait : Phase} {f : BitVec 12 → Phase × BitVec 12} {s : State} (w : Waits s.kind wait f)
    (hd : Driven s) (hp : s.phase = wait) :
    Sys2Proof.Machine.machineCycle (beginCycle (hostTurn s)) =
      .next (waitTimed wait (State.succeed f) (beginCycle s)) := by
  subst hp
  obtain ⟨hdemand, hsample, hrun, -⟩ := isWaiting_idle s w.waiting
  rw [machineCycle_turn_idle s hd hrun hdemand hsample w.belongs, w.row]

/-- The waiting cycles of a timed phase pair, `TMR` of them. -/
theorem stretch_wait (wait : Phase) (f : BitVec 12 → Phase × BitVec 12) (m : Nat) (s : State) (w : Waits s.kind wait f)
    (hd : Driven s) (hp : s.phase = wait) (htmr : s.tmr = m + 1) (hc : s.cycle + (m + 1) ≤ s.cfg.maxCycles) :
    ∃ (t : State) (tr : Trace), Stretch (m + 1) s t tr ∧ Succeeded f s t ∧
      (∀ x ∈ tr, x.events = []) ∧ ∀ x ∈ tr, Shows s.pindir s.out x := by
  induction m generalizing s with
  | zero =>
    have hcycle := w.machineCycle hd hp
    have hlast : waitTimed wait (State.succeed f) (beginCycle s) = ((beginCycle s).setTmr 0).succeed f := by
      rcases waitTimed_cases wait (State.succeed f) (beginCycle s) with ⟨-, h⟩ | ⟨hmore, -⟩
      · exact h
      · rw [beginCycle_tmr] at hmore
        omega
    rw [hlast] at hcycle
    have hnot : done (((beginCycle s).setTmr 0).succeed f) = false := done_of_kind _ w.goesOn
    have hframe : Frame timedRegs s ((beginCycle s).setTmr 0) := by
      rw [timedRegs, frame_iff]
      simp
    refine ⟨_, _, Stretch.single s _ hd (by omega) hcycle hnot, succeeded_endCycle f s _ hframe rfl hnot, ?_, ?_⟩
    · exact List.forall_mem_singleton.mpr rfl
    · exact List.forall_mem_singleton.mpr (shows_snapshot (((beginCycle s).setTmr 0).succeed f))
  | succ m ih =>
    have hcycle := w.machineCycle hd hp
    have hmore : waitTimed wait (State.succeed f) (beginCycle s) = ((beginCycle s).setTmr (m + 1)).goto wait := by
      rcases waitTimed_cases wait (State.succeed f) (beginCycle s) with ⟨hle, -⟩ | ⟨-, h⟩
      · rw [beginCycle_tmr] at hle
        omega
      · rw [h, beginCycle_tmr, htmr]
        rfl
    rw [hmore] at hcycle
    have hnot : done (((beginCycle s).setTmr (m + 1)).goto wait) = false := done_of_kind _ w.goesOn
    have hone := Stretch.single s _ hd (by omega) hcycle hnot
    have hframe : Frame timedRegs s (endCycle (((beginCycle s).setTmr (m + 1)).goto wait)) := by
      have hgoto : Frame timedRegs s (((beginCycle s).setTmr (m + 1)).goto wait) := by
        rw [timedRegs, frame_iff]
        simp
      exact hgoto.trans (frame_endCycle_of_not_done _ hnot) (List.Subset.refl _) (by decide)
    have hkind : (endCycle (((beginCycle s).setTmr (m + 1)).goto wait)).kind = s.kind := endCycle_kind _
    have hphase : (endCycle (((beginCycle s).setTmr (m + 1)).goto wait)).phase = wait := endCycle_phase _
    have hcnt : (endCycle (((beginCycle s).setTmr (m + 1)).goto wait)).cnt = s.cnt := endCycle_cnt _
    obtain ⟨t, tr, hstretch, hsucc, hquiet, hshows⟩ := ih _ (by rwa [hkind]) (hone.driven hd) hphase (endCycle_tmr _)
      (by rw [hone.cycle, hone.cfg]; omega)
    have hbusy : (endCycle (((beginCycle s).setTmr (m + 1)).goto wait)).phase ≠ .setupA :=
      (isWaiting_idle _ (by rw [hphase]; exact w.waiting)).2.2.2
    refine ⟨t, _, Nat.add_comm 1 (m + 1) ▸ hone.trans hbusy hstretch, hsucc.of_frame hframe hcnt, ?_, ?_⟩
    · exact List.forall_mem_cons.mpr ⟨rfl, hquiet⟩
    · refine List.forall_mem_cons.mpr ⟨shows_snapshot (((beginCycle s).setTmr (m + 1)).goto wait), fun x hx => ?_⟩
      have h := hshows x hx
      rwa [endCycle_pindir, endCycle_out] at h

/-- A timed phase pair of `n` cycles under the driver, from the state `v` that its first cycle starts it in. -/
theorem stretch_timed (wait : Phase) (f : BitVec 12 → Phase × BitVec 12) (n : Nat) (s v : State)
    (w : Waits v.kind wait f) (hd : Driven s) (hn : 1 ≤ n) (hc : s.cycle + n ≤ s.cfg.maxCycles)
    (hcycle : machineCycle (beginCycle (hostTurn s)) = .next (startTimed n wait (State.succeed f) v)) :
    ∃ (t : State) (tr : Trace), Stretch n s t tr ∧ Succeeded f v t ∧ TimedTrace v.pindir v.out v.events tr := by
  rcases startTimed_cases n wait (State.succeed f) v with ⟨hone, h⟩ | ⟨hmore, h⟩ <;> rw [h] at hcycle
  · have hnot : done ((v.setTmr 0).succeed f) = false := done_of_kind _ w.goesOn
    refine ⟨_, _, by rw [hone]; exact Stretch.single s _ hd (by omega) hcycle hnot,
      succeeded_endCycle f v (v.setTmr 0) ((frame_setTmr 0 v).mono (by decide)) rfl hnot, _, [], rfl, rfl, by simp,
      List.forall_mem_singleton.mpr (shows_snapshot ((v.setTmr 0).succeed f))⟩
  · obtain ⟨m, rfl⟩ : ∃ m, n = m + 1 + 1 := ⟨n - 2, by omega⟩
    have hnot : done ((v.setTmr (m + 1 + 1 - 1)).goto wait) = false := done_of_kind _ w.goesOn
    have hone := Stretch.single s _ hd (by omega) hcycle hnot
    have hkind : (endCycle ((v.setTmr (m + 1 + 1 - 1)).goto wait)).kind = v.kind := endCycle_kind _
    have hphase : (endCycle ((v.setTmr (m + 1 + 1 - 1)).goto wait)).phase = wait := endCycle_phase _
    have hframe : Frame timedRegs v (endCycle ((v.setTmr (m + 1 + 1 - 1)).goto wait)) :=
      (((frame_setTmr _ v).trans (frame_goto wait _) (ch := timedRegs) (by decide) (by decide)).trans
        (frame_endCycle_of_not_done _ hnot) (List.Subset.refl _) (by decide))
    obtain ⟨t, tr, hstretch, hsucc, hquiet, hshows⟩ := stretch_wait wait f m _ (by rwa [hkind]) (hone.driven hd) hphase
      (endCycle_tmr _) (by rw [hone.cycle, hone.cfg]; omega)
    have hbusy : (endCycle ((v.setTmr (m + 1 + 1 - 1)).goto wait)).phase ≠ .setupA :=
      (isWaiting_idle _ (by rw [hphase]; exact w.waiting)).2.2.2
    refine ⟨t, _, Nat.add_comm 1 (m + 1) ▸ hone.trans hbusy hstretch, hsucc.of_frame hframe (endCycle_cnt _), _, tr, rfl,
      rfl, hquiet, ?_⟩
    refine List.forall_mem_cons.mpr ⟨shows_snapshot ((v.setTmr (m + 1 + 1 - 1)).goto wait), fun x hx => ?_⟩
    have h := hshows x hx
    rwa [endCycle_pindir, endCycle_out] at h

end Sys2Proof.Machine

/-! PROOFS. 40_dispatch R153; 41_pin_commands R170 to R172; 43_sync_commands R220 to R227: `bitbang`, `signal` and
`wait_rbb` as whole commands under the driver. -/

namespace Sys2Proof.Machine

/-! ### The dispatch under the driver -/

theorem DriverReady.driven {s : State} (h : DriverReady s) : Driven s := by
  obtain ⟨hv, -, hhost, hfin, -, -⟩ := h
  exact ⟨hv, hhost, hfin⟩

/-- The driver's turn in a phase that does not sample is `service_pop`. -/
theorem hostTurn_of_not_sample (s : State) (hd : s.host = .driver) (hp : s.phase ≠ .rSample) :
    hostTurn s = servicePop s := by
  simp only [hostTurn, hd]
  exact if_neg fun h => hp h.1

/-- Before SETUP_A the driver pushes the two words of the next head. -/
theorem hostTurn_of_ready (s : State) (h : DriverReady s) (c0 c1 : Word) (rest : List Word)
    (hpending : s.pending = c0 :: c1 :: rest) : hostTurn s = { s with txq := [c0, c1], pending := rest } := by
  obtain ⟨-, hdepth, hhost, -, hp, hq⟩ := h
  have hneed : min (demand s) s.cfg.txDepth = 2 := by
    rw [show demand s = 2 by simp [demand, hp]]
    omega
  rw [hostTurn_of_not_sample s hhost (by simp [hp]), servicePop]
  simp [hneed, hq, hpending, feed, feed_of_le 2 [c0, c1] rest]

/-- The registers a dispatch under the driver writes, with the bookkeeping of the run. -/
def dispatchRegs : List Reg :=
  [.cmd0, .cmd1, .pindir, .cnt, .y, .kind, .phase, .out, .txq, .pending, .trace, .cycle, .env, .events]

/-- From `s` to `t` the driver has dispatched `i`, with `rest` still pending, and `sn` is the snapshot of that cycle. -/
structure Dispatched (i : Instr) (rest : List Word) (s t : State) (sn : Snapshot) : Prop where
  stretch : Stretch 1 s t [sn]
  phase : t.phase = firstPhase i.kind
  kind : t.kind = i.kind
  cmd1 : t.cmd1 = i.cmd1
  pindir : t.pindir = i.pinDirections
  cnt : t.cnt = i.transferCount
  txq : t.txq = []
  pending : t.pending = rest
  out : ∀ j : Nat, t.out.getLsbD j =
    if j = 12 then wpbLevel s.cfg.wpbTable i.kind
    else if j = 10 then decide (i.kind = .cmdLatch) || s.out.getLsbD 10
    else if j = 11 then decide (i.kind = .addrLatch) || s.out.getLsbD 11
    else s.out.getLsbD j
  frame : Frame dispatchRegs s t
  shows : Shows t.pindir t.out sn
  events : sn.events = (encode i).map Event.pop ++ [.dispatch i.kind i.cmdId]
  completion : sn.completion = s.irq

theorem firstPhase_ne_setupA (k : Kind) : firstPhase k ≠ .setupA := by
  cases k <;> decide

/-- The first cycle of every command under the driver (40_dispatch R144, R145). -/
theorem dispatched (s : State) (i : Instr) (rest : List Word) (h : DriverReady s)
    (hwf : i.wellFormed s.cfg.id5Mode = true) (hpending : s.pending = encode i ++ rest)
    (hc : s.cycle < s.cfg.maxCycles) : ∃ (t : State) (sn : Snapshot), Dispatched i rest s t sn := by
  have hp : s.phase = .setupA := h.2.2.2.2.1
  have hturn := hostTurn_of_ready s h _ _ rest hpending
  obtain ⟨u, hpop, hcycle⟩ := machineCycle_of_head
    (beginCycle { s with txq := encode i, pending := rest }) _ i.cmd1 [] (.inl ⟨hp, rfl⟩)
  have hi : decodeHead s.cfg.id5Mode (cmd0Word i.cmdId i.transferCount i.pinDirections) i.cmd1 = i :=
    decodeHead_encode _ i hwf
  have hu : Frame dispatchRegs s u := by
    have hbegin : Frame [.txq, .pending, .events] s (beginCycle { s with txq := encode i, pending := rest }) := by
      rw [frame_iff]
      simp
    exact hbegin.trans hpop.frame (by decide) (by decide)
  rw [beginCycle_cfg, hi] at hcycle
  obtain ⟨hcmd1, hpindir, hcnt, hy, hkind, hphase, hevents⟩ := startCommand_registers i u
  have hstart := frame_startCommand i u
  have hnot : done (startCommand i u) = false :=
    done_of_phase _ (by rw [hphase]; exact firstPhase_ne_setupA i.kind)
  refine ⟨endCycle (startCommand i u), snapshot (startCommand i u), {
    stretch := Stretch.single s _ h.driven hc (by rw [hturn]; exact hcycle) hnot
    phase := by rw [endCycle_phase, hphase]
    kind := by rw [endCycle_kind, hkind]
    cmd1 := by rw [endCycle_cmd1, hcmd1]
    pindir := by rw [endCycle_pindir, hpindir]
    cnt := by rw [endCycle_cnt, hcnt]
    txq := by rw [endCycle_txq]; exact Eq.trans (hstart .txq (by simp)) hpop.txq
    pending := by
      rw [endCycle_pending]
      exact Eq.trans (hstart .pending (by simp)) (hpop.frame .pending (by simp))
    out := fun j => by
      rw [endCycle_out, getLsbD_startCommand_out, show u.cfg = s.cfg from hpop.frame .cfg (by simp),
        show u.out = s.out from hpop.frame .out (by simp)]
    frame := (hu.trans hstart (List.Subset.refl _) (by decide)).trans (frame_endCycle_of_not_done _ hnot)
      (List.Subset.refl _) (by decide)
    shows := by
      rw [endCycle_pindir, endCycle_out]
      exact shows_snapshot _
    events := ?_
    completion := Eq.trans (hstart .irq (by simp)) (hu .irq (by decide)) }⟩
  rw [snapshot_events, hevents, hpop.events]
  simp only [beginCycle_phase, hp, if_true]
  rfl

/-- The bits a dispatch leaves alone, for a command that raises no latch enable. -/
theorem Dispatched.outKept {i : Instr} {rest : List Word} {s t : State} {sn : Snapshot} (h : Dispatched i rest s t sn)
    (hcle : i.kind ≠ .cmdLatch) (hale : i.kind ≠ .addrLatch) : OutKeptBut [12] s t := fun j hj => by
  rw [h.out, if_neg (by simpa using hj)]
  by_cases h10 : j = 10
  · simp [h10, hcle]
  · by_cases h11 : j = 11
    · simp [h11, hale]
    · rw [if_neg h10, if_neg h11]

theorem Dispatched.busy {i : Instr} {rest : List Word} {s t : State} {sn : Snapshot} (h : Dispatched i rest s t sn) :
    t.phase ≠ .setupA := by
  rw [h.phase]
  exact firstPhase_ne_setupA i.kind

/-! ### Single cycles under the driver -/

/-- A cycle of a phase that neither pops nor samples, of a command that does not end the run. -/
theorem stretch_cycle (s : State) (hd : Driven s) (hc : s.cycle < s.cfg.maxCycles) (hrun : isSetup s.phase = false)
    (hdemand : demand s = 0) (hp : s.phase ≠ .rSample) (hbelongs : phaseBelongs s.kind s.phase = true)
    (hterm : isTerminator s.kind = false) :
    Stretch 1 s (endCycle (phaseCycle s.kind s.phase (beginCycle s)))
        [snapshot (phaseCycle s.kind s.phase (beginCycle s))] ∧
      Frame [.trace, .cycle, .env] (phaseCycle s.kind s.phase (beginCycle s))
        (endCycle (phaseCycle s.kind s.phase (beginCycle s))) := by
  have hcycle := machineCycle_turn_idle s hd hrun hdemand hp hbelongs
  have hkind : (phaseCycle s.kind s.phase (beginCycle s)).kind = s.kind :=
    runFrame_phaseCycle s.kind s.phase (beginCycle s) .kind (by decide)
  have hnot : done (phaseCycle s.kind s.phase (beginCycle s)) = false := done_of_kind _ (by rw [hkind, hterm])
  exact ⟨Stretch.single s _ hd hc hcycle hnot, frame_endCycle_of_not_done _ hnot⟩

/-- The state at the end of a stretch is between two commands again. -/
theorem Stretch.driverReady {n : Nat} {s t : State} {tr : Trace} (h : Stretch n s t tr) (hs : DriverReady s)
    (hp : t.phase = .setupA) (hq : t.txq = []) : DriverReady t := by
  obtain ⟨hv, hdepth, hhost, hfin, -, -⟩ := hs
  exact ⟨by rw [h.cfg, hv], by rw [h.cfg]; exact hdepth, h.host.trans hhost, h.finished.trans hfin, hp, hq⟩

/-- Settles O42: the dispatch and `BB_EMIT`. -/
theorem bitbangTakesTwoCycles : Obligations.BitbangTakesTwoCycles := by
  intro s tc pd c1 rest hs hpending hc
  change s.cycle + 2 ≤ s.cfg.maxCycles at hc
  obtain ⟨t, sn, ht⟩ := dispatched s (.bitbang tc pd c1) rest hs rfl hpending (by omega)
  have hp : t.phase = .bbEmit := ht.phase
  have hk : t.kind = .bitbang := ht.kind
  obtain ⟨hemit, hend⟩ := stretch_cycle t (ht.stretch.driven hs.driven)
    (by rw [ht.stretch.cycle, ht.stretch.cfg]; omega) (by rw [hp]; rfl) (by simp [demand, hp]) (by simp [hp])
    (by rw [hp, hk]; rfl) (by rw [hk]; rfl)
  rw [hp, hk] at hemit hend
  have hboth := ht.stretch.trans ht.busy hemit
  obtain ⟨hbus, hkept⟩ := latched_of_setPayload t.cmd1 t (phaseCycle .bitbang .bbEmit (beginCycle t)) rfl
  have hcycle : Frame [.out, .phase, .events] t (phaseCycle .bitbang .bbEmit (beginCycle t)) := by
    rw [frame_iff]
    simp [phaseCycle]
  have hlast : Frame [.out, .phase, .events, .trace, .cycle, .env] t _ := hcycle.trans hend (by simp) (by simp)
  have hall : Frame dispatchRegs s _ := ht.frame.trans hlast (List.Subset.refl _) (by decide)
  have hout : ∀ j, j ∉ busBits → (endCycle (phaseCycle .bitbang .bbEmit (beginCycle t))).out.getLsbD j = t.out.getLsbD j :=
    fun j hj => by rw [endCycle_out]; exact hkept j hj
  have hset : (endCycle (phaseCycle .bitbang .bbEmit (beginCycle t))).phase = .setupA := endCycle_phase _
  have hq : (endCycle (phaseCycle .bitbang .bbEmit (beginCycle t))).txq = [] := Eq.trans (hlast .txq (by simp)) ht.txq
  refine ⟨hboth.busy, _, hboth.run, hboth.driverReady hs hset hq, Eq.trans (hlast .pending (by simp)) ht.pending,
    Eq.trans (hlast .kind (by simp)) ht.kind, Eq.trans (hlast .pindir (by simp)) ht.pindir, ?_, ?_, ?_, hboth.cycle,
    hall .irq (by decide), hall .rxq (by decide), hall .received (by decide)⟩
  · intro j hj
    rw [endCycle_out, hbus j hj, ht.cmd1]
    rfl
  · rw [hout 12 (by decide), ht.out]
    rfl
  · intro j hj
    rw [List.mem_cons, not_or] at hj
    rw [hout j hj.2]
    exact ht.outKept (by simp [Instr.kind]) (by simp [Instr.kind]) j (by simpa using hj.1)

/-! ### The terminators: the run may end with them (46_harness R294) -/

/-- The last step of a command that may end the run: the cycle and its snapshot, with what was read and what waits the
same stream. -/
theorem last_step (s u : State) (hd : Driven s) (hc : s.cycle < s.cfg.maxCycles)
    (hcycle : machineCycle (beginCycle (hostTurn s)) = .next u) :
    step s = .next (endCycle u) ∧ (endCycle u).trace = s.trace ++ [snapshot u] ∧
      (endCycle u).received ++ (endCycle u).rxq = u.received ++ u.rxq :=
  ⟨step_of_machineCycle s u (runnable_of_driven s hd hc) hcycle,
    by rw [endCycle_trace, trace_of_cycle s u hcycle], (hostStreams_endCycle u).received_append_rxq⟩

/-- Settles O47: the dispatch and the `SIGNAL` step. -/
theorem signalTakesTwoCycles : Obligations.SignalTakesTwoCycles := by
  intro s tc pd c1 rest hs hmode hpending hc
  change s.cycle + 2 ≤ s.cfg.maxCycles at hc
  obtain ⟨t, sn, ht⟩ := dispatched s (.signal tc pd c1) rest hs (by rw [hmode]; rfl) hpending (by omega)
  have hd := ht.stretch.driven hs.driven
  have hp : t.phase = .signal := ht.phase
  have hk : t.kind = .signal := ht.kind
  have hcycle := machineCycle_turn_idle t hd (by rw [hp]; rfl) (by simp [demand, hp]) (by simp [hp])
    (by rw [hp, hk]; rfl)
  rw [hp, hk] at hcycle
  have hu : Frame [.irq, .events, .phase] t (phaseCycle .signal .signal (beginCycle t)) := by
    rw [frame_iff]
    simp [phaseCycle]
  obtain ⟨hstep, htrace, hstream⟩ := last_step t _ hd (by rw [ht.stretch.cycle, ht.stretch.cfg]; omega) hcycle
  obtain ⟨hbusy, hrun⟩ := ht.stretch.then_step ht.busy hstep
  have hout : (endCycle (phaseCycle .signal .signal (beginCycle t))).out = t.out := endCycle_out _
  refine ⟨hbusy, _, hrun, endCycle_phase _, ?_, endCycle_irq _, ?_, ?_, ?_, ?_, ?_, ?_, ?_⟩
  · rw [endCycle_kind]
    exact ht.kind
  · rw [endCycle_pending]
    exact ht.pending
  · rw [endCycle_txq]
    exact ht.txq
  · rw [endCycle_pindir]
    exact ht.pindir
  · rw [hout, ht.out]
    rfl
  · intro j hj
    rw [hout]
    exact ht.outKept (by simp [Instr.kind]) (by simp [Instr.kind]) j hj
  · rw [hstream]
    exact congrArg₂ (· ++ ·) (ht.frame .received (by decide)) (ht.frame .rxq (by decide))
  · rw [newTrace, htrace, ht.stretch.trace, List.append_assoc, List.drop_left]
    exact congrArg (fun b => [b, true]) ht.completion

/-- A stretch of no step. -/
theorem Stretch.refl (s : State) : Stretch 0 s s [] where
  run := run_zero s
  busy k hk hk0 := by omega
  trace := (List.append_nil _).symm
  length := rfl
  cycle := rfl
  cycles j sn hj := by simp at hj
  ext _ _ := rfl
  cfg := rfl
  host := rfl
  finished := rfl

/-- Pin 15 as an input is the environment's. -/
theorem level_beginCycle_input (s : State) (h : s.pindir.getLsbD 15 = false) :
    (beginCycle s).level pinRbb = (extAt s s.cycle).getLsbD 15 := by
  rw [level_eq _ _ (by decide), beginCycle_pindir,
    if_neg (show s.pindir.getLsbD pinRbb ≠ true from Bool.eq_false_iff.mp h), ← ext_eq_extAt]
  rfl

/-- What a `wait_rbb` writes while it is busy: the bookkeeping of the run. -/
def waitRegs : List Reg := [.trace, .cycle, .env, .events]

/-- A `wait_rbb` under the driver polls pin 15, an input. -/
structure Polls (s : State) : Prop where
  phase : s.phase = .waitRbb
  kind : s.kind = .waitRbb
  input : s.pindir.getLsbD 15 = false

theorem Polls.of_frame {s t : State} (h : Polls s) (hf : Frame waitRegs s t) : Polls t :=
  ⟨Eq.trans (hf .phase (by decide)) h.phase, Eq.trans (hf .kind (by decide)) h.kind,
    by rw [show t.pindir = s.pindir from hf .pindir (by decide), h.input]⟩

theorem Polls.machineCycle {s : State} (h : Polls s) (hd : Driven s) :
    Sys2Proof.Machine.machineCycle (beginCycle (hostTurn s)) = .next (pollReady (beginCycle s)) := by
  rw [hostTurn_idle s hd.host (by simp [demand, h.phase]) (by simp [h.phase])]
  exact machineCycle_waitRbb (beginCycle s) h.phase h.kind

/-- The busy cycles of a `wait_rbb` under the driver (43_sync_commands R226). -/
theorem stretch_busy (m : Nat) (s : State) (hd : Driven s) (hpolls : Polls s) (hc : s.cycle + m ≤ s.cfg.maxCycles)
    (hlow : ∀ j : Nat, j < m → (extAt s (s.cycle + j)).getLsbD 15 = false) :
    ∃ (t : State) (tr : Trace), Stretch m s t tr ∧ Frame waitRegs s t := by
  induction m generalizing s with
  | zero => exact ⟨s, [], Stretch.refl s, Frame.refl _ s⟩
  | succ m ih =>
    have hbusy : pollReady (beginCycle s) = beginCycle s :=
      pollReady_busy (beginCycle s) hpolls.phase
        ((level_beginCycle_input s hpolls.input).trans (hlow 0 (Nat.succ_pos m)))
    have hcycle := hpolls.machineCycle hd
    rw [hbusy] at hcycle
    have hnot : done (beginCycle s) = false := done_of_phase _ (by simp [hpolls.phase])
    have hone := Stretch.single s _ hd (by omega) hcycle hnot
    have hframe : Frame waitRegs s (endCycle (beginCycle s)) := by
      have hbegin : Frame [.events] s (beginCycle s) := by
        rw [frame_iff]
        simp
      exact hbegin.trans (frame_endCycle_of_not_done _ hnot) (by decide) (by decide)
    obtain ⟨t, tr, hstretch, hrest⟩ := ih _ (hone.driven hd) (hpolls.of_frame hframe)
      (by rw [hone.cycle, hone.cfg]; omega) fun j hj => by
        rw [hone.ext _ (Nat.le_add_right _ j), hone.cycle, Nat.add_assoc, Nat.add_comm 1 j]
        exact hlow (j + 1) (by omega)
    exact ⟨t, _, Nat.add_comm 1 m ▸ hone.trans (by simp [hpolls.phase]) hstretch,
      hframe.trans hrest (List.Subset.refl _) (List.Subset.refl _)⟩

/-- Settles O48: the dispatch, the busy polls, and the poll that reads 1. -/
theorem waitRbbEndsAtFirstReady : Obligations.WaitRbbEndsAtFirstReady := by
  intro s i rest p hs hkind hwf hinput hpending hc hp1 hlow hhigh
  obtain ⟨q, rfl⟩ : ∃ q, p = q + 1 := ⟨p - 1, by omega⟩
  change s.cycle + (1 + (q + 1)) ≤ s.cfg.maxCycles at hc
  obtain ⟨t, sn, ht⟩ := dispatched s i rest hs hwf hpending (by omega)
  have hd := ht.stretch.driven hs.driven
  have hpolls : Polls t := ⟨by rw [ht.phase, hkind]; rfl, ht.kind.trans hkind, by rw [ht.pindir, hinput]⟩
  obtain ⟨w, tr, hwait, hframe⟩ := stretch_busy q t hd hpolls (by rw [ht.stretch.cycle, ht.stretch.cfg]; omega)
    fun j hj => by
      rw [ht.stretch.ext _ (Nat.le_add_right _ j), ht.stretch.cycle, Nat.add_assoc]
      exact hlow (1 + j) (by omega) (by omega)
  have hpolls' := hpolls.of_frame hframe
  have hmore := ht.stretch.trans ht.busy hwait
  have hready : (beginCycle w).level pinRbb = true := by
    rw [level_beginCycle_input w hpolls'.input, hmore.ext _ (Nat.le_refl _), hmore.cycle, Nat.add_comm 1 q, hhigh]
  have hcycle := hpolls'.machineCycle (hwait.driven hd)
  rw [pollReady_ready _ hready] at hcycle
  obtain ⟨hstep, htrace, hstream⟩ := last_step w _ (hwait.driven hd) (by rw [hmore.cycle, hmore.cfg]; omega) hcycle
  obtain ⟨hbusy, hrun⟩ := hmore.then_step (by rw [hpolls'.phase]; decide) hstep
  have hout : (endCycle (((beginCycle w).record .rbbReady).goto .setupA)).out = t.out :=
    (endCycle_out _).trans (hframe .out (by decide))
  have hall : Frame dispatchRegs s w := ht.frame.trans hframe (List.Subset.refl _) (by decide)
  refine ⟨hbusy, _, hrun, endCycle_phase _, ?_, ?_, ?_, ?_, ?_, ?_, ?_, ?_⟩
  · rw [endCycle_kind]
    exact hpolls'.kind
  · rw [endCycle_pending]
    exact Eq.trans (hframe .pending (by decide)) ht.pending
  · rw [endCycle_txq]
    exact Eq.trans (hframe .txq (by decide)) ht.txq
  · rw [endCycle_pindir]
    exact Eq.trans (hframe .pindir (by decide)) ht.pindir
  · rw [endCycle_irq]
    exact hall .irq (by decide)
  · intro j hj
    rw [hout]
    exact ht.outKept (by simp [hkind]) (by simp [hkind]) j hj
  · rw [hstream]
    exact congrArg₂ (· ++ ·) (hall .received (by decide)) (hall .rxq (by decide))
  · rw [newTrace, htrace, hmore.trace, List.append_assoc, List.drop_left, List.length_append, hmore.length]
    rfl

end Sys2Proof.Machine

/-! PROOFS. 40_dispatch R153; 41_pin_commands R173 to R182; 42_transfer_commands R190 to R213: the commands that make write
pulses, as whole commands under the driver. -/

namespace Sys2Proof.Machine

/-! ### One write pulse under the driver (41_pin_commands R176 to R180) -/

theorem isTerminator_of_isWriteKind (k : Kind) (hk : isWriteKind k = true) : isTerminator k = false := by
  revert hk
  cases k <;> decide

theorem waits_wLow (k : Kind) (hk : isWriteKind k = true) : Waits k .wLow (plainly .wRise) :=
  ⟨rfl, (phaseBelongs_of_isWriteKind k hk).2.1, fun _ => rfl, isTerminator_of_isWriteKind k hk⟩

theorem waits_wHigh (k : Kind) (hk : isWriteKind k = true) : Waits k .wHigh (afterPulseTo k) :=
  ⟨rfl, (phaseBelongs_of_isWriteKind k hk).2.2.2, fun s => by rw [← afterPulse_eq_succeed]; rfl,
    isTerminator_of_isWriteKind k hk⟩

/-- The latches with `web` low and the payload on the bus. -/
def placedOut (o : Pins) (p : Word) : Pins := setPayload (setBit o pinWeb false) p

/-- The latches after the rise of `web`. -/
def pulsedOut (o : Pins) (p : Word) : Pins := setBit (placedOut o p) pinWeb true

theorem getLsbD_pulsedOut (o : Pins) (p : Word) (i : Nat) :
    (pulsedOut o p).getLsbD i = if i = 13 then true else if i < 10 then p.getLsbD i else o.getLsbD i := by
  rw [pulsedOut, getLsbD_setBit _ _ _ _ (by decide), placedOut, getLsbD_place]
  by_cases h13 : i = 13
  · rw [if_pos (show i = pinWeb from h13), if_pos h13]
  · rw [if_neg (show ¬ i = pinWeb from h13), if_neg h13, if_neg h13]

/-- The registers a write pulse writes, with the bookkeeping of the run. -/
def pulseRegs : List Reg := [.out, .tmr, .phase, .cnt, .txq, .pending, .trace, .cycle, .env, .events]

/-- From `s` to `t` the driver has run one write pulse with payload `p`, popped as `evs` say: `T_SETUP` cycles with `web`
low, then `T_HOLD` cycles with `web` high. -/
structure WritePulse (p : Word) (evs : List Event) (s t : State) (low high : Trace) : Prop where
  stretch : Stretch (s.cfg.tSetup + s.cfg.tHold) s t (low ++ high)
  lowTrace : TimedTrace s.pindir (placedOut s.out p) (evs ++ [.placement]) low
  highTrace : TimedTrace s.pindir (pulsedOut s.out p) [.latchPulse s.kind] high
  lowLength : low.length = s.cfg.tSetup
  out : t.out = pulsedOut s.out p
  phase : t.phase = (afterPulseTo s.kind s.cnt).1
  cnt : t.cnt = (afterPulseTo s.kind s.cnt).2
  frame : Frame pulseRegs s t

/-- A pulse whose `W_PLACE` cycle starts it from the state `v`. -/
theorem writePulse (s v : State) (p : Word) (hd : Driven s) (hk : isWriteKind s.kind = true)
    (hv : Frame [.txq, .pending, .events] s v)
    (hplace : machineCycle (beginCycle (hostTurn s)) = .next (placePayload p v))
    (hc : s.cycle + (s.cfg.tSetup + s.cfg.tHold) ≤ s.cfg.maxCycles) :
    ∃ (t : State) (low high : Trace), WritePulse p v.events s t low high ∧ t.txq = v.txq ∧ t.pending = v.pending := by
  obtain ⟨hsetup, hhold, -⟩ := (valid_iff s.cfg).mp hd.valid
  have hcfg : v.cfg = s.cfg := hv .cfg (by simp)
  have hkind : v.kind = s.kind := hv .kind (by simp)
  have hout : v.out = s.out := hv .out (by simp)
  have hpindir : v.pindir = s.pindir := hv .pindir (by simp)
  have hplaced : Frame pulseRegs s ((v.setOut (placedOut v.out p)).record .placement) := by
    refine hv.trans (ch₂ := [.out, .events]) ?_ (by decide) (by decide)
    rw [frame_iff]
    simp
  have hwaits : Waits v.kind .wLow (plainly .wRise) := by
    rw [hkind]
    exact waits_wLow s.kind hk
  obtain ⟨a, low, hlow, hsucc, htrace⟩ := stretch_timed .wLow (plainly .wRise) s.cfg.tSetup s
    ((v.setOut (placedOut v.out p)).record .placement) hwaits hd hsetup (by omega)
    (by rw [hplace, placePayload, hcfg]; rfl)
  have ha : a.phase = .wRise := hsucc.phase
  have haKind : a.kind = s.kind := Eq.trans (hsucc.frame .kind (by decide)) hkind
  have haOut : a.out = placedOut s.out p := by rw [← hout]; exact hsucc.frame .out (by decide)
  have haPindir : a.pindir = s.pindir := Eq.trans (hsucc.frame .pindir (by decide)) hpindir
  have haCnt : a.cnt = s.cnt := Eq.trans hsucc.cnt (hv .cnt (by simp))
  have hrise := machineCycle_turn_idle a (hlow.driven hd) (by rw [ha]; rfl) (by simp [demand, ha]) (by simp [ha])
    (by rw [ha, haKind]; exact (phaseBelongs_of_isWriteKind s.kind hk).2.2.1)
  rw [ha, phaseCycle, latchPulse, afterPulse_eq_succeed, beginCycle_cfg, beginCycle_out, beginCycle_kind] at hrise
  have hraised : Frame pulseRegs a (((beginCycle a).setOut (setBit a.out pinWeb true)).record (.latchPulse a.kind)) := by
    rw [pulseRegs, frame_iff]
    simp
  have hwaits' : Waits a.kind .wHigh (afterPulseTo a.kind) := by
    rw [haKind]
    exact waits_wHigh s.kind hk
  obtain ⟨t, high, hhigh, hsucc', htrace'⟩ := stretch_timed .wHigh (afterPulseTo a.kind) a.cfg.tHold a
    (((beginCycle a).setOut (setBit a.out pinWeb true)).record (.latchPulse a.kind)) hwaits'
    (hlow.driven hd) (by rw [hlow.cfg]; exact hhold) (by rw [hlow.cycle, hlow.cfg]; omega) hrise
  rw [hlow.cfg] at hhigh
  have hsa : Frame pulseRegs s a := hplaced.trans hsucc.frame (List.Subset.refl _) (by decide)
  have hat : Frame pulseRegs a t := hraised.trans hsucc'.frame (List.Subset.refl _) (by decide)
  refine ⟨t, low, high, {
    stretch := hlow.trans (by rw [ha]; decide) hhigh
    lowTrace := by
      rw [← hpindir, ← hout]
      exact htrace
    highTrace := by
      rw [← haPindir, ← haKind, pulsedOut, ← haOut]
      exact htrace'
    lowLength := hlow.length
    out := by
      rw [pulsedOut, ← haOut]
      exact hsucc'.frame .out (by decide)
    phase := by
      rw [← haKind, ← haCnt]
      exact hsucc'.phase
    cnt := by
      rw [← haKind, ← haCnt]
      exact hsucc'.cnt
    frame := hsa.trans hat (List.Subset.refl _) (List.Subset.refl _) }, ?_, ?_⟩
  · exact Eq.trans (hsucc'.frame .txq (by decide)) (hsucc.frame .txq (by decide))
  · exact Eq.trans (hsucc'.frame .pending (by decide)) (hsucc.frame .pending (by decide))

/-! ### `cmd_latch` (41_pin_commands R181, R182) -/

/-- The pulse of `cmd_latch`, whose payload is in `CMD1`. -/
theorem writePulse_cmdLatch (s : State) (hd : Driven s) (hp : s.phase = .wPlace) (hk : s.kind = .cmdLatch)
    (hc : s.cycle + (s.cfg.tSetup + s.cfg.tHold) ≤ s.cfg.maxCycles) :
    ∃ (t : State) (low high : Trace), WritePulse s.cmd1 [] s t low high ∧ t.txq = s.txq ∧ t.pending = s.pending := by
  have hplace := machineCycle_turn_idle s hd (by rw [hp]; rfl) (by simp [demand, hp, hk]) (by simp [hp])
    (by rw [hp, hk]; rfl)
  rw [hp, hk] at hplace
  have hbegin : Frame [.txq, .pending, .events] s (beginCycle s) := by
    rw [frame_iff]
    simp
  exact writePulse s (beginCycle s) s.cmd1 hd (by rw [hk]; rfl) hbegin hplace hc

theorem TimedTrace.shows {pd o : Pins} {evs : List Event} {tr : Trace} (h : TimedTrace pd o evs tr) :
    ∀ x ∈ tr, Shows pd o x := by
  obtain ⟨sn, tl, rfl, -, -, hshows⟩ := h
  exact hshows

/-- The place of a snapshot among those of a first cycle, two phase pairs and a last cycle. -/
theorem getElem?_four_parts (a d : Snapshot) (b c : Trace) (j : Nat) (sn : Snapshot)
    (h : (([a] ++ (b ++ c)) ++ [d])[j]? = some sn) :
    (j = 0 ∧ sn = a) ∨ (1 ≤ j ∧ j ≤ b.length ∧ sn ∈ b) ∨
    (b.length < j ∧ j ≤ b.length + c.length ∧ sn ∈ c) ∨ (j = b.length + c.length + 1 ∧ sn = d) := by
  cases j with
  | zero => exact .inl ⟨rfl, (Option.some.inj h).symm⟩
  | succ j =>
    rw [List.append_assoc, List.singleton_append, List.getElem?_cons_succ, List.append_assoc] at h
    rcases Nat.lt_or_ge j b.length with hb | hb
    · rw [List.getElem?_append_left hb] at h
      exact .inr (.inl ⟨by omega, by omega, List.mem_of_getElem? h⟩)
    · rw [List.getElem?_append_right hb] at h
      rcases Nat.lt_or_ge (j - b.length) c.length with hc | hc
      · rw [List.getElem?_append_left hc] at h
        exact .inr (.inr (.inl ⟨by omega, by omega, List.mem_of_getElem? h⟩))
      · rw [List.getElem?_append_right hc] at h
        obtain ⟨hlt, hd⟩ := List.getElem?_eq_some_iff.mp h
        rw [List.length_singleton] at hlt
        rw [List.getElem_singleton] at hd
        exact .inr (.inr (.inr ⟨by omega, hd.symm⟩))

/-- A latch enable's exit cycle under the driver lowers the enable and ends the command (41_pin_commands R181,
42_transfer_commands R193). -/
theorem stretch_exit (s : State) (pin : Nat) (hd : Driven s) (hc : s.cycle < s.cfg.maxCycles)
    (h : (s.phase = .clExit ∧ s.kind = .cmdLatch ∧ pin = pinCle) ∨
      (s.phase = .alExit ∧ s.kind = .addrLatch ∧ pin = pinAle)) :
    ∃ (t : State) (sn : Snapshot), Stretch 1 s t [sn] ∧ t.phase = .setupA ∧ t.out = setBit s.out pin false ∧
      Shows s.pindir t.out sn ∧ sn.events = [] ∧ Frame [.out, .phase, .events, .trace, .cycle, .env] s t := by
  have hcycle : isSetup s.phase = false ∧ demand s = 0 ∧ s.phase ≠ .rSample ∧ phaseBelongs s.kind s.phase = true ∧
      isTerminator s.kind = false ∧
      phaseCycle s.kind s.phase (beginCycle s) = ((beginCycle s).setOut (setBit s.out pin false)).goto .setupA := by
    rcases h with ⟨hp, hk, rfl⟩ | ⟨hp, hk, rfl⟩ <;> simp [hp, hk, isSetup, demand, phaseBelongs, isTerminator, phaseCycle]
  obtain ⟨hrun, hdemand, hsample, hbelongs, hterm, heq⟩ := hcycle
  obtain ⟨hstretch, hend⟩ := stretch_cycle s hd hc hrun hdemand hsample hbelongs hterm
  rw [heq] at hstretch hend
  have hwrites : Frame [.out, .phase, .events] s (((beginCycle s).setOut (setBit s.out pin false)).goto .setupA) := by
    rw [frame_iff]
    simp
  refine ⟨_, _, hstretch, endCycle_phase _, endCycle_out _, ?_, rfl, hwrites.trans hend (by simp) (by simp)⟩
  rw [endCycle_out]
  exact shows_snapshot (((beginCycle s).setOut (setBit s.out pin false)).goto .setupA)

/-- The latches after a whole `cmd_latch`: the pulse's, with `cle` low. -/
theorem getLsbD_cmdLatch_out {o : Pins} (p : Word) (i : Nat) :
    (setBit (pulsedOut o p) pinCle false).getLsbD i =
      if i = 10 then false else if i = 13 then true else if i < 10 then p.getLsbD i else o.getLsbD i := by
  rw [getLsbD_setBit _ _ _ _ (by decide), getLsbD_pulsedOut]
  rfl

/-- Settles O43: the dispatch, the pulse and `CL_EXIT`. -/
theorem cmdLatchCycleTable : Obligations.CmdLatchCycleTable := by
  intro s tc pd c1 rest n hs hpending hweb hn hc
  change n = 1 + s.cfg.tSetup + s.cfg.tHold + 1 at hn
  obtain ⟨a, first, ha⟩ := dispatched s (.cmdLatch tc pd c1) rest hs rfl hpending (by omega)
  have hcfg := ha.stretch.cfg
  have hd := ha.stretch.driven hs.driven
  obtain ⟨b, low, high, hb, hbTxq, hbPending⟩ := writePulse_cmdLatch a hd ha.phase ha.kind
    (by rw [ha.stretch.cycle, hcfg]; omega)
  have hab := ha.stretch.trans ha.busy hb.stretch
  have haKind : a.kind = .cmdLatch := ha.kind
  have haPindir : a.pindir = pd := ha.pindir
  have haCmd1 : a.cmd1 = c1 := ha.cmd1
  have haCle : a.out.getLsbD 10 = true := ha.out 10
  have haWeb : a.out.getLsbD 13 = true := (ha.out 13).trans hweb
  have hbPindir : b.pindir = pd := Eq.trans (hb.frame .pindir (by decide)) haPindir
  have hbPhase : b.phase = .clExit := by rw [hb.phase, haKind]; rfl
  have hbKind : b.kind = .cmdLatch := Eq.trans (hb.frame .kind (by decide)) ha.kind
  obtain ⟨t, last, ht, htPhase, htOut, htShows, -, htFrame⟩ := stretch_exit b pinCle (hab.driven hs.driven)
    (by rw [hab.cycle, hab.cfg, hcfg]; omega) (.inl ⟨hbPhase, hbKind, rfl⟩)
  have hall := hab.trans (by rw [hbPhase]; decide) ht
  rw [hb.out, haCmd1] at htOut
  have hbits : ∀ i, t.out.getLsbD i = _ := fun i => htOut ▸ getLsbD_cmdLatch_out c1 i
  have hlowLength : low.length = s.cfg.tSetup := by rw [hb.lowLength, hcfg]
  have hhighLength : low.length + high.length = s.cfg.tSetup + s.cfg.tHold := by
    rw [← List.length_append, hb.stretch.length, hcfg]
  have hlowTrace := hb.lowTrace.shows
  have hhighTrace := hb.highTrace.shows
  obtain ⟨hone, -⟩ := (valid_iff s.cfg).mp hs.driven.valid
  have htTxq : t.txq = [] := (Eq.trans (htFrame .txq (by simp)) hbTxq).trans ha.txq
  have hfirst := ha.shows
  rw [haPindir] at hfirst hlowTrace hhighTrace
  rw [haCmd1] at hlowTrace hhighTrace
  rw [hcfg] at hall
  rw [show 1 + (s.cfg.tSetup + s.cfg.tHold) + 1 = n by omega] at hall
  refine ⟨hall.busy, t, hall.run, hall.driverReady hs htPhase htTxq, ?_, ?_, ?_, ?_, hbits 10, hbits 13, ?_, hall.cycle,
    ?_, ?_, ?_, ?_⟩
  · exact (Eq.trans (htFrame .pending (by simp)) hbPending).trans ha.pending
  · exact Eq.trans (htFrame .kind (by simp)) hbKind
  · exact Eq.trans (htFrame .pindir (by simp)) hbPindir
  · intro i hi
    rw [hbits, if_neg (by omega), if_neg (by omega), if_pos hi]
  · intro i hi
    simp only [List.mem_cons, mem_busBits_iff, not_or] at hi
    obtain ⟨h10, h12, h13, hten⟩ := hi
    rw [hbits, if_neg h10, if_neg h13, if_neg hten, ha.out, if_neg h12, if_neg h10]
    by_cases h11 : i = 11
    · simp [h11, Instr.kind]
    · rw [if_neg h11]
  · exact Eq.trans (htFrame .rxq (by simp)) (Eq.trans (hb.frame .rxq (by decide)) (ha.frame .rxq (by decide)))
  · exact Eq.trans (htFrame .received (by simp))
      (Eq.trans (hb.frame .received (by decide)) (ha.frame .received (by decide)))
  · rw [hall.newTrace, hall.length]
  · intro j sn hj
    rw [hall.newTrace] at hj
    refine ⟨hall.cycles j sn hj, ?_⟩
    rcases getElem?_four_parts _ _ _ _ j sn hj with ⟨hj, rfl⟩ | ⟨hlo, hhi, hmem⟩ | ⟨hlo, hhi, hmem⟩ | ⟨hj, rfl⟩
    · obtain ⟨-, hcle, hw⟩ := hfirst
      refine ⟨fun hpd => ?_, fun hpd => ?_, fun h1 => by omega⟩
      · rw [hcle hpd, haCle, decide_eq_true (by omega)]
      · rw [hw hpd, haWeb, decide_eq_false (by omega)]
        rfl
    · obtain ⟨hbus, hcle, hw⟩ := hlowTrace sn hmem
      refine ⟨fun hpd => ?_, fun hpd => ?_, fun h1 k hk hpd => ?_⟩
      · rw [hcle hpd, placedOut, getLsbD_place, if_neg (by decide), if_neg (by decide), haCle,
          decide_eq_true (by omega)]
      · rw [hw hpd, placedOut, getLsbD_place, if_neg (by decide), if_pos rfl, decide_eq_true (by omega),
          decide_eq_true (by omega)]
        rfl
      · rw [hbus k hk hpd, placedOut, getLsbD_place, if_pos hk]
    · obtain ⟨hbus, hcle, hw⟩ := hhighTrace sn hmem
      refine ⟨fun hpd => ?_, fun hpd => ?_, fun h1 k hk hpd => ?_⟩
      · rw [hcle hpd, getLsbD_pulsedOut, if_neg (by decide), if_neg (by decide), haCle, decide_eq_true (by omega)]
      · rw [hw hpd, getLsbD_pulsedOut, if_pos rfl, decide_eq_false (show ¬ j ≤ s.cfg.tSetup by omega), Bool.and_false]
        rfl
      · rw [hbus k hk hpd, getLsbD_pulsedOut, if_neg (by omega), if_pos hk]
    · obtain ⟨hbus, hcle, hw⟩ := htShows
      rw [hbPindir] at hbus hcle hw
      refine ⟨fun hpd => ?_, fun hpd => ?_, fun h1 k hk hpd => ?_⟩
      · rw [hcle hpd, hbits, if_pos rfl, decide_eq_false (by omega)]
      · rw [hw hpd, hbits, if_neg (by decide), if_pos rfl, decide_eq_false (show ¬ j ≤ s.cfg.tSetup by omega),
          Bool.and_false]
        rfl
      · rw [hbus k hk hpd, hbits, if_neg (by omega), if_neg (by omega), if_pos hk]

/-! ### The loop of `addr_latch` and `data_input` (42_transfer_commands R190, R210) -/

/-- Before `W_PLACE` of a command that pops its payload the driver pushes the next payload word. -/
theorem hostTurn_of_place (s : State) (hd : Driven s) (hp : s.phase = .wPlace)
    (hk : s.kind = .addrLatch ∨ s.kind = .dataInput) (hq : s.txq = []) (p : Word) (rest : List Word)
    (hpending : s.pending = p :: rest) : hostTurn s = { s with txq := [p], pending := rest } := by
  have hdemand : demand s = 1 := by rcases hk with hk | hk <;> simp [demand, hp, hk]
  have hdepth : 1 ≤ s.cfg.txDepth := ((valid_iff s.cfg).mp hd.valid).2.2.2.1
  have hneed : min (demand s) s.cfg.txDepth = 1 := by omega
  rw [hostTurn_of_not_sample s hd.host (by simp [hp]), servicePop]
  simp [hneed, hq, hpending, feed, feed_of_le 1 [p] rest]

/-- The pulse of a command that pops its payload. -/
theorem writePulse_popping (s : State) (hd : Driven s) (hp : s.phase = .wPlace)
    (hk : s.kind = .addrLatch ∨ s.kind = .dataInput) (hq : s.txq = []) (p : Word) (rest : List Word)
    (hpending : s.pending = p :: rest) (hc : s.cycle + (s.cfg.tSetup + s.cfg.tHold) ≤ s.cfg.maxCycles) :
    ∃ (t : State) (low high : Trace), WritePulse p [.pop p] s t low high ∧ t.txq = [] ∧ t.pending = rest := by
  have hturn := hostTurn_of_place s hd hp hk hq p rest hpending
  have hwrite : isWriteKind s.kind = true := by rcases hk with hk | hk <;> rw [hk] <;> rfl
  have hne : s.kind ≠ .cmdLatch := by rcases hk with hk | hk <;> rw [hk] <;> decide
  have hplace : machineCycle (beginCycle (hostTurn s)) =
      .next (placePayload p (((beginCycle { s with txq := [p], pending := rest }).setTxq []).record (.pop p))) := by
    rw [hturn, machineCycle_running _ (by rw [beginCycle_phase, hp]; rfl), phaseOutcome, beginCycle_kind, beginCycle_phase,
      hp, if_pos (phaseBelongs_of_isWriteKind s.kind hwrite).1, phaseCycle, placeCycle, if_neg hne]
    rfl
  have hv : Frame [.txq, .pending, .events] s
      (((beginCycle { s with txq := [p], pending := rest }).setTxq []).record (.pop p)) := by
    rw [frame_iff]
    simp
  exact writePulse s _ p hd hwrite hv hplace hc

/-- The phase after the last pulse of a command that pops its payload. -/
def loopExit (k : Kind) : Phase := if k = .addrLatch then .alExit else .setupA

theorem afterPulseTo_popping (k : Kind) (hk : k = .addrLatch ∨ k = .dataInput) (c : BitVec 12) :
    afterPulseTo k c = loopingTo .wPlace (loopExit k) c := by
  rcases hk with rfl | rfl <;> rfl

/-- From `s` to `t` the driver has run one pulse for each word of `payload`, in order. -/
structure Written (payload rest : List Word) (s t : State) (tr : Trace) : Prop where
  stretch : Stretch (payload.length * (s.cfg.tSetup + s.cfg.tHold)) s t tr
  phase : t.phase = loopExit s.kind
  cnt : t.cnt = 0
  txq : t.txq = []
  pending : t.pending = rest
  web : t.out.getLsbD 13 = true
  outKept : OutKeptBut (13 :: busBits) s t
  frame : Frame pulseRegs s t
  popped : poppedWords tr = payload
  pulses : (latchedBus s.kind tr).length = payload.length
  bus : (∀ j : Nat, j < 10 → s.pindir.getLsbD j = true) → latchedBus s.kind tr = payload.map p10Field

theorem OutKeptBut.trans {ch ch₁ ch₂ : List Nat} {s t u : State} (h : OutKeptBut ch₁ s t) (k : OutKeptBut ch₂ t u)
    (h₁ : ch₁ ⊆ ch) (h₂ : ch₂ ⊆ ch) : OutKeptBut ch s u := fun j hj =>
  (k j fun hm => hj (h₂ hm)).trans (h j fun hm => hj (h₁ hm))

theorem getLsbD_p10Field (p : Word) (j : Nat) (hj : j < 10) : (p10Field p).getLsbD j = p.getLsbD j := by
  rw [p10Field, BitVec.getLsbD_extractLsb', decide_eq_true hj, Bool.true_and, Nat.zero_add]

/-- What one pulse of a command that pops its payload leaves, in the trace and on the latches. -/
theorem WritePulse.summary {p : Word} {s t : State} {low high : Trace} (h : WritePulse p [.pop p] s t low high) :
    poppedWords (low ++ high) = [p] ∧ t.out.getLsbD 13 = true ∧ OutKeptBut (13 :: busBits) s t ∧
    ∃ b : BitVec 10, latchedBus s.kind (low ++ high) = [b] ∧
      ((∀ j : Nat, j < 10 → s.pindir.getLsbD j = true) → b = p10Field p) := by
  refine ⟨?_, ?_, fun j hj => ?_, ?_⟩
  · rw [poppedWords_append, poppedWords, poppedWords, h.lowTrace.traceEvents, h.highTrace.traceEvents]
    rfl
  · rw [h.out, getLsbD_pulsedOut, if_pos rfl]
  · simp only [List.mem_cons, mem_busBits_iff, not_or] at hj
    rw [h.out, getLsbD_pulsedOut, if_neg hj.1, if_neg hj.2]
  · obtain ⟨b, hb, hbits⟩ := h.highTrace.latchedBus_of_pulse
    refine ⟨b, by rw [latchedBus_append, h.lowTrace.latchedBus_of_no_pulse _ (by simp), hb]; rfl, fun hpd => ?_⟩
    refine BitVec.eq_of_getLsbD_eq fun j hj => ?_
    rw [hbits j hj (hpd j hj), getLsbD_p10Field p j hj, getLsbD_pulsedOut, if_neg (by omega), if_pos hj]

/-- The loop, by induction on the payload words still to be sent. -/
theorem written (payload rest : List Word) (s : State) (hd : Driven s) (hp : s.phase = .wPlace)
    (hk : s.kind = .addrLatch ∨ s.kind = .dataInput) (hq : s.txq = []) (hpending : s.pending = payload ++ rest)
    (hlen : payload.length = s.cnt.toNat + 1)
    (hc : s.cycle + payload.length * (s.cfg.tSetup + s.cfg.tHold) ≤ s.cfg.maxCycles) :
    ∃ (t : State) (tr : Trace), Written payload rest s t tr := by
  induction payload generalizing s with
  | nil => simp at hlen
  | cons p payload ih =>
    rw [List.length_cons, Nat.succ_mul] at hc
    obtain ⟨a, low, high, ha, haTxq, haPending⟩ :=
      writePulse_popping s hd hp hk hq p (payload ++ rest) hpending (by omega)
    obtain ⟨hpopped, hweb, hkept, b, hbus, hfield⟩ := ha.summary
    have hsucc := afterPulseTo_popping _ hk s.cnt
    rw [loopingTo] at hsucc
    by_cases h0 : s.cnt = 0
    · obtain rfl : payload = [] := by
        rw [h0] at hlen
        exact List.length_eq_zero_iff.mp (Nat.succ_injective hlen)
      rw [if_pos h0] at hsucc
      refine ⟨a, _, ⟨by simpa using ha.stretch, by rw [ha.phase, hsucc], by rw [ha.cnt, hsucc, h0], haTxq, haPending,
        hweb, hkept, ha.frame, hpopped, by rw [hbus]; rfl, fun hpd => by rw [hbus, hfield hpd]; rfl⟩⟩
    · rw [if_neg h0] at hsucc
      have hphase : a.phase = .wPlace := by rw [ha.phase, hsucc]
      have hcnt : a.cnt = s.cnt - 1 := by rw [ha.cnt, hsucc]
      have hakind : a.kind = s.kind := ha.frame .kind (by decide)
      have hpred := cnt_pred_toNat s.cnt h0
      have hcfg := ha.stretch.cfg
      obtain ⟨t, tr, ht⟩ := ih a (ha.stretch.driven hd) hphase (by rwa [hakind]) haTxq haPending
        (by rw [hcnt]; simp only [List.length_cons] at hlen; omega)
        (by rw [ha.stretch.cycle, hcfg]; omega)
      have hrest := ht.stretch
      have hpulses := ht.pulses
      have hbus' := ht.bus
      rw [hcfg] at hrest
      rw [hakind] at hpulses hbus'
      rw [show a.pindir = s.pindir from ha.frame .pindir (by decide)] at hbus'
      refine ⟨t, (low ++ high) ++ tr, {
        stretch := by
          rw [List.length_cons, Nat.succ_mul, Nat.add_comm]
          exact ha.stretch.trans (by rw [hphase]; decide) hrest
        phase := by rw [ht.phase, hakind]
        cnt := ht.cnt
        txq := ht.txq
        pending := ht.pending
        web := ht.web
        outKept := hkept.trans ht.outKept (List.Subset.refl _) (List.Subset.refl _)
        frame := ha.frame.trans ht.frame (List.Subset.refl _) (List.Subset.refl _)
        popped := by
          rw [poppedWords_append, hpopped, ht.popped]
          rfl
        pulses := by
          rw [latchedBus_append, hbus, List.length_append, hpulses, List.length_cons, Nat.add_comm]
          rfl
        bus := fun hpd => by
          rw [latchedBus_append, hbus, hfield hpd, hbus' hpd]
          rfl }⟩

/-! ### `addr_latch` and `data_input` as whole commands (42_transfer_commands R190 to R194, R210 to R213) -/

/-- The snapshot of a dispatch holds the two pops of the head and no pulse. -/
theorem Dispatched.firstSnapshot {i : Instr} {rest : List Word} {s t : State} {sn : Snapshot}
    (h : Dispatched i rest s t sn) (k : Kind) : poppedWords [sn] = encode i ∧ latchedBus k [sn] = [] := by
  refine ⟨?_, ?_⟩
  · simp [poppedWords, traceEvents, h.events, encode, poppedWord]
  · simp [latchedBus, h.events, encode, isPulseOf]

/-- A snapshot without events adds nothing to the streams. -/
theorem quiet_snapshot (sn : Snapshot) (k : Kind) (h : sn.events = []) :
    poppedWords [sn] = [] ∧ latchedBus k [sn] = [] := by
  refine ⟨?_, ?_⟩
  · simp [poppedWords, traceEvents, h]
  · simp [latchedBus, h]

/-- The dispatch and the loop of a command that pops its payload. -/
theorem dispatched_written (s : State) (i : Instr) (payload rest : List Word) (hs : DriverReady s)
    (hk : i.kind = .addrLatch ∨ i.kind = .dataInput) (hwf : i.wellFormed s.cfg.id5Mode = true)
    (hpending : s.pending = encode i ++ payload ++ rest) (hlen : payload.length = i.transferCount.toNat + 1)
    (hc : s.cycle + (1 + payload.length * (s.cfg.tSetup + s.cfg.tHold)) ≤ s.cfg.maxCycles) :
    ∃ (a b : State) (first : Snapshot) (tr : Trace), Dispatched i (payload ++ rest) s a first ∧
      Written payload rest a b tr ∧
      Stretch (1 + payload.length * (s.cfg.tSetup + s.cfg.tHold)) s b ([first] ++ tr) := by
  obtain ⟨a, first, ha⟩ := dispatched s i (payload ++ rest) hs hwf (by rw [hpending, List.append_assoc]) (by omega)
  have hcfg := ha.stretch.cfg
  have hphase : a.phase = .wPlace := by rw [ha.phase]; rcases hk with h | h <;> rw [h] <;> rfl
  obtain ⟨b, tr, hb⟩ := written payload rest a (ha.stretch.driven hs.driven) hphase (by rwa [ha.kind]) ha.txq ha.pending
    (by rw [ha.cnt, hlen]) (by rw [ha.stretch.cycle, hcfg]; omega)
  exact ⟨a, b, first, tr, ha, hb, hcfg ▸ ha.stretch.trans ha.busy hb.stretch⟩

/-- Settles O44: the dispatch, the loop and `AL_EXIT`. -/
theorem addrLatchSendsEveryPayloadWord : Obligations.AddrLatchSendsEveryPayloadWord := by
  intro s tc pd c1 payload rest n hs hpending hlen hn hc
  change n = 1 + (tc.toNat + 1) * (s.cfg.tSetup + s.cfg.tHold) + 1 at hn
  rw [← hlen] at hn
  obtain ⟨a, b, first, tr, ha, hb, hab⟩ := dispatched_written s (.addrLatch tc pd c1) payload rest hs (.inl rfl) rfl
    hpending hlen (by omega)
  have haKind : a.kind = .addrLatch := ha.kind
  have hbPhase : b.phase = .alExit := by rw [hb.phase, haKind]; rfl
  have hbKind : b.kind = .addrLatch := Eq.trans (hb.frame .kind (by decide)) haKind
  obtain ⟨t, last, ht, htPhase, htOut, -, htEvents, htFrame⟩ := stretch_exit b pinAle (hab.driven hs.driven)
    (by rw [hab.cycle, hab.cfg]; omega) (.inr ⟨hbPhase, hbKind, rfl⟩)
  have hall := hab.trans (by rw [hbPhase]; decide) ht
  rw [← hn] at hall
  have hbits : ∀ j, t.out.getLsbD j = if j = 11 then false else b.out.getLsbD j := fun j => by
    rw [htOut, getLsbD_setBit _ _ _ _ (by decide)]
    rfl
  have hframe : Frame (dispatchRegs ++ pulseRegs) s t :=
    (ha.frame.trans hb.frame (by decide) (by decide)).trans htFrame (List.Subset.refl _) (by decide)
  obtain ⟨hfirstPopped, hfirstBus⟩ := ha.firstSnapshot .addrLatch
  obtain ⟨hlastPopped, hlastBus⟩ := quiet_snapshot last .addrLatch htEvents
  have hbus : latchedBus .addrLatch (([first] ++ tr) ++ [last]) = latchedBus a.kind tr := by
    rw [latchedBus_append, latchedBus_append, hfirstBus, hlastBus, List.nil_append, List.append_nil, haKind]
  refine ⟨hall.busy, t, hall.run, hall.driverReady hs htPhase (Eq.trans (htFrame .txq (by simp)) hb.txq),
    Eq.trans (htFrame .pending (by simp)) hb.pending, Eq.trans (htFrame .kind (by simp)) hbKind,
    Eq.trans (htFrame .cnt (by simp)) hb.cnt, ?_, hbits 11, ?_, ?_, hall.cycle, hframe .rxq (by decide),
    hframe .received (by decide), ?_, ?_, ?_, ?_⟩
  · exact Eq.trans (htFrame .pindir (by simp)) (Eq.trans (hb.frame .pindir (by decide)) ha.pindir)
  · rw [hbits, if_neg (by decide), hb.web]
  · intro j hj
    simp only [List.mem_cons, not_or] at hj
    obtain ⟨h11, h12, h13, hten⟩ := hj
    rw [hbits, if_neg h11, hb.outKept j (by simp [h13, hten]), ha.out, if_neg h12, if_neg h11]
    by_cases h10 : j = 10
    · simp [h10, Instr.kind]
    · rw [if_neg h10]
  · rw [hall.newTrace, hall.length]
  · rw [hall.newTrace, poppedWords_append, poppedWords_append, hfirstPopped, hb.popped, hlastPopped, List.append_nil]
  · rw [hall.newTrace, hbus, hb.pulses, hlen]
  · intro hpd
    rw [hall.newTrace, hbus]
    exact hb.bus fun j hj => by rw [show a.pindir = pd from ha.pindir, hpd j hj]

/-- Settles O45: the dispatch and the loop. -/
theorem dataInputSendsEveryPayloadWord : Obligations.DataInputSendsEveryPayloadWord := by
  intro s tc pd c1 payload rest n hs hpending hlen hn hc
  change n = 1 + (tc.toNat + 1) * (s.cfg.tSetup + s.cfg.tHold) at hn
  rw [← hlen] at hn
  obtain ⟨a, t, first, tr, ha, ht, hall⟩ := dispatched_written s (.dataInput tc pd c1) payload rest hs (.inr rfl) rfl
    hpending hlen (by omega)
  rw [← hn] at hall
  have haKind : a.kind = .dataInput := ha.kind
  have htPhase : t.phase = .setupA := by rw [ht.phase, haKind]; rfl
  have hframe : Frame (dispatchRegs ++ pulseRegs) s t := ha.frame.trans ht.frame (by decide) (by decide)
  obtain ⟨hfirstPopped, hfirstBus⟩ := ha.firstSnapshot .dataInput
  have hbus : latchedBus .dataInput ([first] ++ tr) = latchedBus a.kind tr := by
    rw [latchedBus_append, hfirstBus, List.nil_append, haKind]
  refine ⟨hall.busy, t, hall.run, hall.driverReady hs htPhase ht.txq, ht.pending,
    Eq.trans (ht.frame .kind (by decide)) haKind, ht.cnt, Eq.trans (ht.frame .pindir (by decide)) ha.pindir, ht.web, ?_,
    hall.cycle, hframe .rxq (by decide), hframe .received (by decide), ?_, ?_, ?_, ?_⟩
  · intro j hj
    simp only [List.mem_cons, not_or] at hj
    rw [ht.outKept j (by simp [hj])]
    exact ha.outKept (by simp [Instr.kind]) (by simp [Instr.kind]) j (by simp [hj])
  · rw [hall.newTrace, hall.length]
  · rw [hall.newTrace, poppedWords_append, hfirstPopped, ht.popped]
  · rw [hall.newTrace, hbus, ht.pulses, hlen]
  · intro hpd
    rw [hall.newTrace, hbus]
    exact ht.bus fun j hj => by rw [show a.pindir = pd from ha.pindir, hpd j hj]

end Sys2Proof.Machine

/-! PROOFS. 42_transfer_commands R200 to R207; 46_harness R292: `data_output` as a whole command under the driver. -/

namespace Sys2Proof.Machine

/-! ### The sample (42_transfer_commands R203) -/

/-- The word a sample in cycle `c` gives with the latches and directions of `s` (10_state R30). -/
def sampleAt (s : State) (c : Nat) : Word :=
  d8Word (((s.pindir &&& s.out) ||| (~~~s.pindir &&& extAt s c)).extractLsb' 0 8)

theorem d8Word_sampledByte (s : State) : d8Word s.sampledByte = sampleAt s s.cycle := by
  rw [sampleAt, ← ext_eq_extAt]
  rfl

/-- A sample depends on the directions, the latches of pins 7 to 0 and the environment in its cycle. -/
theorem sampleAt_congr {s t : State} {c : Nat} (hpindir : t.pindir = s.pindir)
    (hout : ∀ j : Nat, j < 8 → t.out.getLsbD j = s.out.getLsbD j) (hext : extAt t c = extAt s c) :
    sampleAt t c = sampleAt s c := by
  refine congrArg d8Word (BitVec.eq_of_getLsbD_eq fun j hj => ?_)
  simp only [BitVec.getLsbD_extractLsb', BitVec.getLsbD_or, BitVec.getLsbD_and, Nat.zero_add, hpindir, hout j hj, hext]

/-- Before `R_SAMPLE` the driver makes room in `RXQ` and loses no word (46_harness R292). -/
theorem hostTurn_of_sample (s : State) (hd : Driven s) (hp : s.phase = .rSample) :
    (hostTurn s).rxq.length < s.cfg.rxDepth ∧ Frame [.rxq, .received] s (hostTurn s) := by
  have hdepth : 1 ≤ s.cfg.rxDepth := ((valid_iff s.cfg).mp hd.valid).2.2.2.2.1
  have hturn : hostTurn s = servicePush s := by
    rw [hostTurn, hd.host]
    simp only [servicePop_of_no_demand s (by simp [demand, hp])]
  rw [hturn]
  rcases servicePush_cases s with ⟨-, -, h⟩ | ⟨hnot, h⟩ <;> rw [h]
  · refine ⟨hdepth, ?_⟩
    rw [frame_iff]
    simp [drain]
  · exact ⟨by_contra fun hfull => hnot ⟨hp, hfull⟩, Frame.refl _ s⟩

/-! ### One read pulse under the driver (42_transfer_commands R201 to R204) -/

theorem waits_rLow : Waits .dataOutput .rLow (plainly .rSample) := ⟨rfl, rfl, fun _ => rfl, rfl⟩

theorem waits_rHigh : Waits .dataOutput .rHigh (loopingTo .rFall .setupA) :=
  ⟨rfl, rfl, fun s => by rw [← loopBack_eq_succeed]; rfl, rfl⟩

/-- The registers a read pulse writes, with the bookkeeping of the run. -/
def readRegs : List Reg := [.out, .tmr, .phase, .cnt, .rxq, .received, .trace, .cycle, .env, .events]

/-- The half of a read pulse with `reb` low, `T_RSETTLE` cycles. -/
structure ReadLow (s t : State) (tr : Trace) : Prop where
  stretch : Stretch s.cfg.tRsettle s t tr
  phase : t.phase = .rSample
  cnt : t.cnt = s.cnt
  out : t.out = setBit s.out pinReb false
  pushed : pushedWords tr = []
  frame : Frame [.out, .tmr, .phase, .cnt, .trace, .cycle, .env, .events] s t

theorem readPulse_low (s : State) (hd : Driven s) (hp : s.phase = .rFall) (hk : s.kind = .dataOutput)
    (hc : s.cycle + s.cfg.tRsettle ≤ s.cfg.maxCycles) : ∃ (t : State) (tr : Trace), ReadLow s t tr := by
  obtain ⟨-, -, hsettle, -⟩ := (valid_iff s.cfg).mp hd.valid
  have hcycle := machineCycle_turn_idle s hd (by rw [hp]; rfl) (by simp [demand, hp]) (by simp [hp])
    (by rw [hp, hk]; rfl)
  rw [hp, hk, phaseCycle, readFall, goto_eq_succeed] at hcycle
  have hfall : Frame [.out, .events] s ((beginCycle s).setOut (setBit s.out pinReb false)) := by
    rw [frame_iff]
    simp
  have hwaits : Waits ((beginCycle s).setOut (setBit s.out pinReb false)).kind .rLow (plainly .rSample) := by
    rw [show ((beginCycle s).setOut (setBit s.out pinReb false)).kind = .dataOutput from hk]
    exact waits_rLow
  obtain ⟨t, tr, hstretch, hsucc, htrace⟩ := stretch_timed .rLow (plainly .rSample) s.cfg.tRsettle s
    ((beginCycle s).setOut (setBit s.out pinReb false)) hwaits hd hsettle hc hcycle
  exact ⟨t, tr, {
    stretch := hstretch
    phase := hsucc.phase
    cnt := hsucc.cnt
    out := hsucc.frame .out (by decide)
    pushed := by
      rw [pushedWords, htrace.traceEvents]
      rfl
    frame := hfall.trans hsucc.frame (by decide) (by decide) }⟩

/-- The half of a read pulse from the sample on, `T_HOLD` cycles. -/
structure ReadHigh (s t : State) (tr : Trace) : Prop where
  stretch : Stretch s.cfg.tHold s t tr
  phase : t.phase = (loopingTo .rFall .setupA s.cnt).1
  cnt : t.cnt = (loopingTo .rFall .setupA s.cnt).2
  out : t.out = setBit s.out pinReb true
  pushed : pushedWords tr = [sampleAt s s.cycle]
  stream : t.received ++ t.rxq = s.received ++ s.rxq ++ [sampleAt s s.cycle]
  frame : Frame readRegs s t

theorem readPulse_high (s : State) (hd : Driven s) (hp : s.phase = .rSample) (hk : s.kind = .dataOutput)
    (hc : s.cycle + s.cfg.tHold ≤ s.cfg.maxCycles) : ∃ (t : State) (tr : Trace), ReadHigh s t tr := by
  obtain ⟨-, hhold, -⟩ := (valid_iff s.cfg).mp hd.valid
  obtain ⟨hroom, hturn⟩ := hostTurn_of_sample s hd hp
  have hstream := (hostStreams_hostTurn s).received_append_rxq
  obtain ⟨u, hu⟩ : ∃ u, u = beginCycle (hostTurn s) := ⟨_, rfl⟩
  have hsu : Frame [.rxq, .received, .events] s u := by
    have hbegin : Frame [.events] (hostTurn s) u := by
      rw [hu, frame_iff]
      simp
    exact hturn.trans hbegin (by simp) (by simp)
  have huPhase : u.phase = .rSample := (hsu .phase (by simp)).trans hp
  have huKind : u.kind = .dataOutput := (hsu .kind (by simp)).trans hk
  have hucfg : u.cfg = s.cfg := hsu .cfg (by simp)
  have huOut : u.out = s.out := hsu .out (by simp)
  have huStream : u.received ++ u.rxq = s.received ++ s.rxq := by
    rw [hu]
    exact hstream
  have hword : d8Word u.sampledByte = sampleAt s s.cycle := by
    have huCycle : u.cycle = s.cycle := hsu .cycle (by simp)
    rw [d8Word_sampledByte, huCycle]
    refine sampleAt_congr (hsu .pindir (by simp)) (fun j _ => by rw [huOut]) ?_
    rw [extAt, extAt, huCycle, show u.env = s.env from hsu .env (by simp)]
  have hcycle : machineCycle (beginCycle (hostTurn s)) = .next (startTimed s.cfg.tHold .rHigh
      (State.succeed (loopingTo .rFall .setupA)) (((u.setRxq (u.rxq ++ [d8Word u.sampledByte])).record
        (.readSample u.sampledByte)).setOut (setBit u.out pinReb true))) := by
    rw [← hu, machineCycle_running u (by rw [huPhase]; rfl), phaseOutcome, huKind, huPhase, if_pos (by rfl), phaseCycle,
      readSample_of_room u (by rw [hucfg, hu]; exact hroom), hucfg, ← loopBack_eq_succeed]
    rfl
  rw [hword, huOut] at hcycle
  have hpush : Frame readRegs s (((u.setRxq (u.rxq ++ [sampleAt s s.cycle])).record (.readSample u.sampledByte)).setOut
      (setBit s.out pinReb true)) := by
    refine hsu.trans (ch₂ := [.rxq, .out, .events]) ?_ (by decide) (by decide)
    rw [frame_iff]
    simp
  obtain ⟨t, tr, hstretch, hsucc, htrace⟩ := stretch_timed .rHigh (loopingTo .rFall .setupA) s.cfg.tHold s
    (((u.setRxq (u.rxq ++ [sampleAt s s.cycle])).record (.readSample u.sampledByte)).setOut (setBit s.out pinReb true))
    (show Waits u.kind _ _ by rw [huKind]; exact waits_rHigh) hd hhold hc hcycle
  have huCnt : u.cnt = s.cnt := hsu .cnt (by simp)
  have huEvents : u.events = [] := by rw [hu]; rfl
  exact ⟨t, tr, {
    stretch := hstretch
    phase := by
      rw [← huCnt]
      exact hsucc.phase
    cnt := by
      rw [← huCnt]
      exact hsucc.cnt
    out := hsucc.frame .out (by decide)
    pushed := by
      rw [pushedWords, htrace.traceEvents]
      simp [huEvents, pushedWord, hword]
    stream := by
      rw [show t.received = u.received from hsucc.frame .received (by decide),
        show t.rxq = u.rxq ++ [sampleAt s s.cycle] from hsucc.frame .rxq (by decide), ← List.append_assoc, huStream]
    frame := hpush.trans hsucc.frame (List.Subset.refl _) (by decide) }⟩

/-- From `s` to `t` the driver has run one read pulse. -/
structure ReadPulse (s t : State) (tr : Trace) : Prop where
  stretch : Stretch (s.cfg.tRsettle + s.cfg.tHold) s t tr
  phase : t.phase = (loopingTo .rFall .setupA s.cnt).1
  cnt : t.cnt = (loopingTo .rFall .setupA s.cnt).2
  reb : t.out.getLsbD 14 = true
  outKept : OutKeptBut [14] s t
  pushed : pushedWords tr = [sampleAt s (s.cycle + s.cfg.tRsettle)]
  stream : t.received ++ t.rxq = s.received ++ s.rxq ++ [sampleAt s (s.cycle + s.cfg.tRsettle)]
  frame : Frame readRegs s t

theorem readPulse (s : State) (hd : Driven s) (hp : s.phase = .rFall) (hk : s.kind = .dataOutput)
    (hc : s.cycle + (s.cfg.tRsettle + s.cfg.tHold) ≤ s.cfg.maxCycles) :
    ∃ (t : State) (tr : Trace), ReadPulse s t tr := by
  obtain ⟨a, low, ha⟩ := readPulse_low s hd hp hk (by omega)
  have hcfg := ha.stretch.cfg
  have hcycle := ha.stretch.cycle
  have hframe := ha.frame
  obtain ⟨t, high, ht⟩ := readPulse_high a (ha.stretch.driven hd) ha.phase (Eq.trans (hframe .kind (by decide)) hk)
    (by rw [hcycle, hcfg]; omega)
  obtain ⟨-, hfallKept⟩ := outKeptBut_of_setBit 14 false (by decide) s a ha.out
  obtain ⟨hreb, hriseKept⟩ := outKeptBut_of_setBit 14 true (by decide) a t ht.out
  have hsample : sampleAt a a.cycle = sampleAt s (s.cycle + s.cfg.tRsettle) := by
    rw [← hcycle]
    refine sampleAt_congr (hframe .pindir (by decide)) (fun j hj => hfallKept j ?_) (ha.stretch.ext _ (Nat.le_refl _))
    rw [List.mem_singleton]
    omega
  have hhigh := ht.stretch
  rw [hcfg] at hhigh
  exact ⟨t, low ++ high, {
    stretch := ha.stretch.trans (by rw [ha.phase]; decide) hhigh
    phase := by rw [ht.phase, ha.cnt]
    cnt := by rw [ht.cnt, ha.cnt]
    reb := hreb
    outKept := hfallKept.trans hriseKept (List.Subset.refl _) (List.Subset.refl _)
    pushed := by
      rw [pushedWords_append, ha.pushed, ht.pushed, hsample]
      rfl
    stream := by
      rw [ht.stream, hsample, show a.received = s.received from hframe .received (by decide),
        show a.rxq = s.rxq from hframe .rxq (by decide)]
    frame := hframe.trans ht.frame (by decide) (List.Subset.refl _) }⟩

/-! ### The loop of `data_output` (42_transfer_commands R200, R206) -/

/-- The words of `m` read pulses from `s` on, one every `T_RSETTLE + T_HOLD` cycles. -/
def samplesFrom (s : State) (m : Nat) : List Word :=
  (List.range m).map fun k => sampleAt s (s.cycle + k * (s.cfg.tRsettle + s.cfg.tHold) + s.cfg.tRsettle)

/-- After one pulse the samples still to come are those from the pulse's end. -/
theorem samplesFrom_succ {s t : State} {tr : Trace} (h : ReadPulse s t tr) (m : Nat) :
    samplesFrom s (m + 1) = sampleAt s (s.cycle + s.cfg.tRsettle) :: samplesFrom t m := by
  have hcycle := h.stretch.cycle
  have hcfg := h.stretch.cfg
  rw [samplesFrom, samplesFrom, List.range_succ_eq_map, List.map_cons, List.map_map, Nat.zero_mul, Nat.add_zero]
  refine congrArg _ (List.map_congr_left fun k _ => ?_)
  have hplace : t.cycle + k * (t.cfg.tRsettle + t.cfg.tHold) + t.cfg.tRsettle =
      s.cycle + (k + 1) * (s.cfg.tRsettle + s.cfg.tHold) + s.cfg.tRsettle := by
    rw [hcycle, hcfg, Nat.succ_mul]
    omega
  rw [hplace]
  refine (sampleAt_congr (h.frame .pindir (by decide)) (fun j hj => h.outKept j ?_) (h.stretch.ext _ ?_)).symm
  · rw [List.mem_singleton]
    omega
  · rw [← hplace]
    omega

/-- From `s` to `t` the driver has run the read pulses that are left. -/
structure ReadOut (m : Nat) (s t : State) (tr : Trace) : Prop where
  stretch : Stretch (m * (s.cfg.tRsettle + s.cfg.tHold)) s t tr
  phase : t.phase = .setupA
  cnt : t.cnt = 0
  reb : t.out.getLsbD 14 = true
  outKept : OutKeptBut [14] s t
  pushed : pushedWords tr = samplesFrom s m
  stream : t.received ++ t.rxq = s.received ++ s.rxq ++ samplesFrom s m
  frame : Frame readRegs s t

/-- The last pulse of the loop. -/
theorem ReadPulse.readOut {s t : State} {tr : Trace} (h : ReadPulse s t tr) (h0 : s.cnt = 0) : ReadOut 1 s t tr where
  stretch := by
    rw [Nat.one_mul]
    exact h.stretch
  phase := by rw [h.phase, loopingTo, if_pos h0]
  cnt := by rw [h.cnt, loopingTo, if_pos h0, h0]
  reb := h.reb
  outKept := h.outKept
  pushed := by rw [h.pushed, samplesFrom_succ h]; rfl
  stream := by rw [h.stream, samplesFrom_succ h]; rfl
  frame := h.frame

/-- One more pulse before the loop's rest. -/
theorem ReadPulse.then_readOut {m : Nat} {s a t : State} {tr tr' : Trace} (h : ReadPulse s a tr)
    (hp : a.phase = .rFall) (k : ReadOut m a t tr') : ReadOut (m + 1) s t (tr ++ tr') where
  stretch := by
    rw [Nat.succ_mul, Nat.add_comm]
    exact h.stretch.trans (by rw [hp]; decide) (h.stretch.cfg ▸ k.stretch)
  phase := k.phase
  cnt := k.cnt
  reb := k.reb
  outKept := h.outKept.trans k.outKept (List.Subset.refl _) (List.Subset.refl _)
  pushed := by rw [pushedWords_append, h.pushed, k.pushed, samplesFrom_succ h]; rfl
  stream := by rw [k.stream, h.stream, samplesFrom_succ h, List.append_assoc]; rfl
  frame := h.frame.trans k.frame (List.Subset.refl _) (List.Subset.refl _)

/-- The loop, by induction on the counter. -/
theorem readOut (m : Nat) (s : State) (hd : Driven s) (hp : s.phase = .rFall) (hk : s.kind = .dataOutput)
    (hm : s.cnt.toNat = m) (hc : s.cycle + (m + 1) * (s.cfg.tRsettle + s.cfg.tHold) ≤ s.cfg.maxCycles) :
    ∃ (t : State) (tr : Trace), ReadOut (m + 1) s t tr := by
  induction m generalizing s with
  | zero =>
    obtain ⟨t, tr, ht⟩ := readPulse s hd hp hk (by omega)
    exact ⟨t, tr, ht.readOut (BitVec.eq_of_toNat_eq hm)⟩
  | succ m ih =>
    rw [Nat.succ_mul] at hc
    obtain ⟨a, tr, ha⟩ := readPulse s hd hp hk (by omega)
    have h0 : s.cnt ≠ 0 := fun h => by simp [h] at hm
    have hphase : a.phase = .rFall := by rw [ha.phase, loopingTo, if_neg h0]
    have hcnt : a.cnt = s.cnt - 1 := by rw [ha.cnt, loopingTo, if_neg h0]
    have hpred := cnt_pred_toNat s.cnt h0
    obtain ⟨t, tr', ht⟩ := ih a (ha.stretch.driven hd) hphase (Eq.trans (ha.frame .kind (by decide)) hk)
      (by rw [hcnt]; omega) (by rw [ha.stretch.cycle, ha.stretch.cfg]; omega)
    exact ⟨t, _, ha.then_readOut hphase ht⟩

/-! ### `data_output` as a whole command (42_transfer_commands R205, R207) -/

/-- The snapshot of a dispatch holds no sample. -/
theorem Dispatched.pushedWords_eq_nil {i : Instr} {rest : List Word} {s t : State} {sn : Snapshot}
    (h : Dispatched i rest s t sn) : pushedWords [sn] = [] := by
  simp [pushedWords, traceEvents, h.events, encode, pushedWord]

/-- Settles O46: the dispatch and the loop. -/
theorem dataOutputReturnsSampledBytes : Obligations.DataOutputReturnsSampledBytes := by
  intro s tc pd c1 rest n samples hs hpending hn hc hsamples
  change n = 1 + (tc.toNat + 1) * (s.cfg.tRsettle + s.cfg.tHold) at hn
  obtain ⟨a, first, ha⟩ := dispatched s (.dataOutput tc pd c1) rest hs rfl hpending (by omega)
  have hcfg := ha.stretch.cfg
  have hcycle := ha.stretch.cycle
  have haKind : a.kind = .dataOutput := ha.kind
  have hfirstKept := ha.outKept (by simp [Instr.kind]) (by simp [Instr.kind])
  obtain ⟨t, tr, ht⟩ := readOut tc.toNat a (ha.stretch.driven hs.driven) ha.phase haKind (by rw [ha.cnt]; rfl)
    (by rw [hcycle, hcfg]; omega)
  have hall := ha.stretch.trans ha.busy ht.stretch
  rw [hcfg, ← hn] at hall
  have hfrom : samplesFrom a (tc.toNat + 1) = samples := by
    rw [hsamples, samplesFrom, hcfg, hcycle]
    refine List.map_congr_left fun k _ => congrArg d8Word (BitVec.eq_of_getLsbD_eq fun j hj => ?_)
    have hbit : a.out.getLsbD j = s.out.getLsbD j := hfirstKept j (by rw [List.mem_singleton]; omega)
    have hext := ha.stretch.ext (s.cycle + 1 + k * (s.cfg.tRsettle + s.cfg.tHold) + s.cfg.tRsettle)
      (by rw [hcycle]; omega)
    simp only [BitVec.getLsbD_extractLsb', BitVec.getLsbD_or, BitVec.getLsbD_and, Nat.zero_add, hbit, hext,
      show a.pindir = pd from ha.pindir]
  have hpushed := ht.pushed
  have hstream := ht.stream
  rw [hfrom] at hpushed hstream
  refine ⟨hall.busy, t, hall.run,
    hall.driverReady hs ht.phase (Eq.trans (ht.frame .txq (by decide)) ha.txq),
    Eq.trans (ht.frame .pending (by decide)) ha.pending, Eq.trans (ht.frame .kind (by decide)) haKind, ht.cnt,
    Eq.trans (ht.frame .pindir (by decide)) ha.pindir, ht.reb,
    hfirstKept.trans ht.outKept (by simp) (by simp), hall.cycle, ?_, ?_, ?_⟩
  · rw [hall.newTrace, hall.length]
  · rw [hall.newTrace, pushedWords_append, ha.pushedWords_eq_nil, hpushed, List.nil_append]
  · rw [hstream, show a.received = s.received from ha.frame .received (by decide),
      show a.rxq = s.rxq from ha.frame .rxq (by decide)]

end Sys2Proof.Machine
